-- ==== Sys2Proof/Word.lean ====
section
/-! DEFINITION. The words of the interface (spec/00_scope.md R9, spec/30_encoding.md R65).

A word is a 32-bit unsigned value with bit 0 the least significant; an operation key has 16 bits.
Time, microticks, ticks and the counter itself are natural numbers (R9), so they are `Nat`. -/

namespace Sys2Proof

/-- A 32-bit word, the unit of every bus access (R9, R48). -/
abbrev Word := BitVec 32

/-- A 16-bit operation key (R65). -/
abbrev Key := BitVec 16

end Sys2Proof
end

