-- ==== Sys2Proof/Config.lean ====
section
/-! DEFINITION. What an implementation fixes, and the free values.

The spec leaves the number and width of the Timer instances, the number of Vic instances and the
Timer's reset value, mode and clock select to the platform (spec/00_scope.md R8,
spec/92_eei_decisions.md D15 and D25).  They are the fields of `Platform`.  What a fatal access
leaves in the Timer it hit is not specified (spec/60_exceptions.md R137): those are the constants
with no body below. -/

namespace Sys2Proof

/-- `T.bits`: the counter's width, 16 or 32, fixed at construction (R6, R19). -/
inductive Width where
  | w16
  | w32
  deriving DecidableEq, Repr, Inhabited

/-- `T.mode`: what the counter does when it passes zero (R19). -/
inductive Mode where
  | freeRunning
  | periodic
  deriving DecidableEq, Repr, Inhabited

/-- `T.clksel`: 2 kHz or 508 kHz (R19). -/
inductive ClkSel where
  | k2
  | k508
  deriving DecidableEq, Repr, Inhabited

/-- The construction of one Timer instance: its width, and the three open parameters
`timer_reset_value`, `timer_reset_mode` and `timer_reset_clksel` (R8, R153, D15). -/
structure TimerParams where
  bits        : Width
  resetValue  : Nat
  resetMode   : Mode
  resetClksel : ClkSel
  deriving DecidableEq, Repr

/-- The platform's parameters (R8, D25): the Timer instances, the number of Vic instances, and the
clock's reading when the instances are constructed (`now0` of R153). -/
structure Platform where
  timers : List TimerParams
  vics   : Nat
  now0   : Nat
  deriving DecidableEq, Repr

/-- The platform that `Machine.State.reset` is built for.
DESIGN CHOICE (assumptions 1, 2 and 5): one Timer of each width and two Vics; the draw 0,
`FreeRunning`, `K2` that D15 suggests; clock origin 0. -/
def Config.platform : Platform :=
  { timers := [⟨.w32, 0, .freeRunning, .k2⟩, ⟨.w16, 0, .freeRunning, .k2⟩]
    vics := 2
    now0 := 0 }

/-! Free values (assumption 4): the fields of the Timer that a fatal access hit.  R137: "The state
the fatal access left is not specified and must not be read."  U15 treats it as any value.  Each
is applied to the counter `State.draws`. -/

/-- `T.load` after a fatal access: any value. -/
opaque Config.fatalLoad : Nat → Option Nat
/-- `T.value` after a fatal access: any value. -/
opaque Config.fatalValue : Nat → Nat
/-- `T.enabled` after a fatal access: any value. -/
opaque Config.fatalEnabled : Nat → Bool
/-- `T.mode` after a fatal access: any value. -/
opaque Config.fatalMode : Nat → Mode
/-- `T.clksel` after a fatal access: any value. -/
opaque Config.fatalClksel : Nat → ClkSel
/-- `T.frac` after a fatal access: any value. -/
opaque Config.fatalFrac : Nat → Nat
/-- `T.last` after a fatal access: any value. -/
opaque Config.fatalLast : Nat → Nat

end Sys2Proof
end

