-- ==== Sys2Proof/Syntax.lean ====
section
/-! DEFINITION. The operations of the block as syntax: one constructor per row of
spec/opcode_table.json (spec/30_encoding.md R70, R71, R72).

The operands are those of R69: the slot index `i`, the source line `src` and the data word `v` of a
Write.  Which instance is addressed and the clock reading `now` are not part of an operation's key
or data; they stand in `State.inst` and `State.now`. -/

namespace Sys2Proof

/-- The 46 operations of the opcode table. -/
inductive Instr where
  /-- TMR_LOAD_RD: Read Load (R80). -/
  | tmrLoadRd
  /-- TMR_LOAD_WR: Write Load (R81). -/
  | tmrLoadWr (v : Word)
  /-- TMR_VALUE_RD: Read Value (R82). -/
  | tmrValueRd
  /-- TMR_VALUE_WR: Write Value (R83). -/
  | tmrValueWr (v : Word)
  /-- TMR_CTRL_RD: Read Control (R84). -/
  | tmrCtrlRd
  /-- TMR_CTRL_WR: Write Control (R85). -/
  | tmrCtrlWr (v : Word)
  /-- TMR_CLEAR_RD: Read Clear (R86). -/
  | tmrClearRd
  /-- TMR_CLEAR_WR: Write Clear (R87). -/
  | tmrClearWr (v : Word)
  /-- VIC_IRQSTATUS_RD: Read IRQStatus (R91). -/
  | vicIrqStatusRd
  /-- VIC_IRQSTATUS_WR: Write IRQStatus (R92). -/
  | vicIrqStatusWr (v : Word)
  /-- VIC_FIQSTATUS_RD: Read FIQStatus (R93). -/
  | vicFiqStatusRd
  /-- VIC_FIQSTATUS_WR: Write FIQStatus (R94). -/
  | vicFiqStatusWr (v : Word)
  /-- VIC_RAWINTR_RD: Read RawIntr (R95). -/
  | vicRawIntrRd
  /-- VIC_RAWINTR_WR: Write RawIntr (R96). -/
  | vicRawIntrWr (v : Word)
  /-- VIC_INTSELECT_RD: Read IntSelect (R97). -/
  | vicIntSelectRd
  /-- VIC_INTSELECT_WR: Write IntSelect (R98). -/
  | vicIntSelectWr (v : Word)
  /-- VIC_INTENABLE_RD: Read IntEnable (R99). -/
  | vicIntEnableRd
  /-- VIC_INTENABLE_WR: Write IntEnable (R100). -/
  | vicIntEnableWr (v : Word)
  /-- VIC_INTENCLEAR_RD: Read IntEnClear (R101). -/
  | vicIntEnClearRd
  /-- VIC_INTENCLEAR_WR: Write IntEnClear (R102). -/
  | vicIntEnClearWr (v : Word)
  /-- VIC_SOFTINT_RD: Read SoftInt (R103). -/
  | vicSoftIntRd
  /-- VIC_SOFTINT_WR: Write SoftInt (R104). -/
  | vicSoftIntWr (v : Word)
  /-- VIC_SOFTINTCLEAR_RD: Read SoftIntClear (R105). -/
  | vicSoftIntClearRd
  /-- VIC_SOFTINTCLEAR_WR: Write SoftIntClear (R106). -/
  | vicSoftIntClearWr (v : Word)
  /-- VIC_PROTECTION_RD: Read Protection (R107). -/
  | vicProtectionRd
  /-- VIC_PROTECTION_WR: Write Protection (R108). -/
  | vicProtectionWr (v : Word)
  /-- VIC_VECTADDR_RD: Read VectAddr (R110). -/
  | vicVectAddrRd
  /-- VIC_VECTADDR_WR: Write VectAddr (R111). -/
  | vicVectAddrWr (v : Word)
  /-- VIC_DEFVECTADDR_RD: Read DefVectAddr (R112). -/
  | vicDefVectAddrRd
  /-- VIC_DEFVECTADDR_WR: Write DefVectAddr (R113). -/
  | vicDefVectAddrWr (v : Word)
  /-- VIC_VECTADDRn_RD: Read VectAddr[i], i = key[5:2] (R114). -/
  | vicVectAddrSlotRd (i : Nat)
  /-- VIC_VECTADDRn_WR: Write VectAddr[i] (R115). -/
  | vicVectAddrSlotWr (i : Nat) (v : Word)
  /-- VIC_VECTCNTLn_RD: Read VectCntl[i], i = key[5:2] (R116). -/
  | vicVectCntlSlotRd (i : Nat)
  /-- VIC_VECTCNTLn_WR: Write VectCntl[i] (R117). -/
  | vicVectCntlSlotWr (i : Nat) (v : Word)
  /-- VIC_HWID0_RD: Read hardware ID word 0 (R118). -/
  | vicHwId0Rd
  /-- VIC_HWID1_RD: Read hardware ID word 1 (R119). -/
  | vicHwId1Rd
  /-- VIC_HWID2_RD: Read hardware ID word 2 (R120). -/
  | vicHwId2Rd
  /-- VIC_HWID3_RD: Read hardware ID word 3 (R121). -/
  | vicHwId3Rd
  /-- VIC_HWID0_WR: Write hardware ID word 0 (R122). -/
  | vicHwId0Wr (v : Word)
  /-- VIC_HWID1_WR: Write hardware ID word 1 (R123). -/
  | vicHwId1Wr (v : Word)
  /-- VIC_HWID2_WR: Write hardware ID word 2 (R124). -/
  | vicHwId2Wr (v : Word)
  /-- VIC_HWID3_WR: Write hardware ID word 3 (R125). -/
  | vicHwId3Wr (v : Word)
  /-- VIC_ASSERT: assert(s), s = key[4:0] (R127). -/
  | vicAssert (src : Nat)
  /-- VIC_CLEAR: clear(s), s = key[4:0] (R128). -/
  | vicClear (src : Nat)
  /-- VIC_IRQ: irq() (R129). -/
  | vicIrq
  /-- VIC_FIQ: fiq() (R130). -/
  | vicFiq
  deriving DecidableEq, Repr

/-- The row of spec/opcode_table.json an operation stands for, by its mnemonic. -/
def Instr.mnemonic : Instr → String
  | .tmrLoadRd => "TMR_LOAD_RD"
  | .tmrLoadWr _ => "TMR_LOAD_WR"
  | .tmrValueRd => "TMR_VALUE_RD"
  | .tmrValueWr _ => "TMR_VALUE_WR"
  | .tmrCtrlRd => "TMR_CTRL_RD"
  | .tmrCtrlWr _ => "TMR_CTRL_WR"
  | .tmrClearRd => "TMR_CLEAR_RD"
  | .tmrClearWr _ => "TMR_CLEAR_WR"
  | .vicIrqStatusRd => "VIC_IRQSTATUS_RD"
  | .vicIrqStatusWr _ => "VIC_IRQSTATUS_WR"
  | .vicFiqStatusRd => "VIC_FIQSTATUS_RD"
  | .vicFiqStatusWr _ => "VIC_FIQSTATUS_WR"
  | .vicRawIntrRd => "VIC_RAWINTR_RD"
  | .vicRawIntrWr _ => "VIC_RAWINTR_WR"
  | .vicIntSelectRd => "VIC_INTSELECT_RD"
  | .vicIntSelectWr _ => "VIC_INTSELECT_WR"
  | .vicIntEnableRd => "VIC_INTENABLE_RD"
  | .vicIntEnableWr _ => "VIC_INTENABLE_WR"
  | .vicIntEnClearRd => "VIC_INTENCLEAR_RD"
  | .vicIntEnClearWr _ => "VIC_INTENCLEAR_WR"
  | .vicSoftIntRd => "VIC_SOFTINT_RD"
  | .vicSoftIntWr _ => "VIC_SOFTINT_WR"
  | .vicSoftIntClearRd => "VIC_SOFTINTCLEAR_RD"
  | .vicSoftIntClearWr _ => "VIC_SOFTINTCLEAR_WR"
  | .vicProtectionRd => "VIC_PROTECTION_RD"
  | .vicProtectionWr _ => "VIC_PROTECTION_WR"
  | .vicVectAddrRd => "VIC_VECTADDR_RD"
  | .vicVectAddrWr _ => "VIC_VECTADDR_WR"
  | .vicDefVectAddrRd => "VIC_DEFVECTADDR_RD"
  | .vicDefVectAddrWr _ => "VIC_DEFVECTADDR_WR"
  | .vicVectAddrSlotRd _ => "VIC_VECTADDRn_RD"
  | .vicVectAddrSlotWr _ _ => "VIC_VECTADDRn_WR"
  | .vicVectCntlSlotRd _ => "VIC_VECTCNTLn_RD"
  | .vicVectCntlSlotWr _ _ => "VIC_VECTCNTLn_WR"
  | .vicHwId0Rd => "VIC_HWID0_RD"
  | .vicHwId1Rd => "VIC_HWID1_RD"
  | .vicHwId2Rd => "VIC_HWID2_RD"
  | .vicHwId3Rd => "VIC_HWID3_RD"
  | .vicHwId0Wr _ => "VIC_HWID0_WR"
  | .vicHwId1Wr _ => "VIC_HWID1_WR"
  | .vicHwId2Wr _ => "VIC_HWID2_WR"
  | .vicHwId3Wr _ => "VIC_HWID3_WR"
  | .vicAssert _ => "VIC_ASSERT"
  | .vicClear _ => "VIC_CLEAR"
  | .vicIrq => "VIC_IRQ"
  | .vicFiq => "VIC_FIQ"

end Sys2Proof
end

