-- ==== Sys2Proof/WellFormed.lean ====
section
/-! DEFINITION. Which terms of `Instr` are operations: a slot index is below 16 (spec/00_scope.md R7,
spec/10_state.md R36) and a source line is below 32 (spec/30_encoding.md R67).  Every data word is a
32-bit word, which its type says. -/

namespace Sys2Proof

/-- The operand checks of R36 and R67. -/
def Instr.wellFormed : Instr → Bool
  | .tmrLoadRd | .tmrLoadWr _ | .tmrValueRd | .tmrValueWr _ | .tmrCtrlRd | .tmrCtrlWr _
  | .tmrClearRd | .tmrClearWr _ | .vicIrqStatusRd | .vicIrqStatusWr _ | .vicFiqStatusRd
  | .vicFiqStatusWr _ | .vicRawIntrRd | .vicRawIntrWr _ | .vicIntSelectRd | .vicIntSelectWr _
  | .vicIntEnableRd | .vicIntEnableWr _ | .vicIntEnClearRd | .vicIntEnClearWr _ | .vicSoftIntRd
  | .vicSoftIntWr _ | .vicSoftIntClearRd | .vicSoftIntClearWr _ | .vicProtectionRd
  | .vicProtectionWr _ | .vicVectAddrRd | .vicVectAddrWr _ | .vicDefVectAddrRd
  | .vicDefVectAddrWr _ | .vicHwId0Rd | .vicHwId1Rd | .vicHwId2Rd | .vicHwId3Rd | .vicHwId0Wr _
  | .vicHwId1Wr _ | .vicHwId2Wr _ | .vicHwId3Wr _ | .vicIrq | .vicFiq => true
  | .vicVectAddrSlotRd i | .vicVectAddrSlotWr i _ | .vicVectCntlSlotRd i | .vicVectCntlSlotWr i _ => decide (i < 16)
  | .vicAssert src | .vicClear src => decide (src < 32)

/-- An operation whose operands are in range. -/
abbrev Instr.WellFormed (i : Instr) : Prop := i.wellFormed = true

end Sys2Proof
end

