-- ==== Sys2Proof/Decode.lean ====
section
/-! DEFINITION. The operations the agents issue at the interface, the 16-bit operation key, the
decoder (total on every key) and the encoder (spec/30_encoding.md R65 to R75).

An operation's words are its key and its data lane: 48 bits, key in bits 15:0 and data word in bits
47:16.  Only a Write reads the data lane (R66, R69); see assumption 7. -/

namespace Sys2Proof

/-- The two kinds of device (spec/60_exceptions.md R148). -/
inductive Device where
  | timer
  | vic
  deriving DecidableEq, Repr

/-- The direction of a bus access (spec/20_memory.md R46). -/
inductive Dir where
  | read
  | write
  deriving DecidableEq, Repr

/-- The size of a bus access; only words belong to the interface (R48). -/
inductive AccessSize where
  | byte
  | halfword
  | word
  deriving DecidableEq, Repr

/-- What an agent asks of the block (spec/00_scope.md R3, R13): an operation given by its key; a bus
Read or Write at a byte offset (R46); a port operation (R127 to R130); a register-name query of the
debug collaborator (R150). -/
inductive Operation where
  | key (key : Key) (data : Word)
  | bus (dev : Device) (dir : Dir) (size : AccessSize) (off : Nat) (data : Word)
  | assertLine (src : Nat)
  | clearLine (src : Nat)
  | irqLine
  | fiqLine
  | nameQuery (dev : Device) (off : Nat)
  deriving DecidableEq, Repr

/-- The words of one operation: its key and its data lane (R66, R75). -/
structure OpWords where
  key  : Key
  data : Word
  deriving DecidableEq, Repr

/-- Why something an agent asked is no operation of the block. -/
inductive Reject where
  /-- A key of class 11 (R68, R73). -/
  | reservedClass
  /-- A key of class 00 or 01 with bit 13 set (R65, R68, R73). -/
  | zBitSet
  /-- A key of class 10 whose bits 11:5 are not 0, or an `irq` or `fiq` key whose bits 4:0 are not 0
  (R68, R73). -/
  | portBitsSet
  /-- A byte or halfword access (R48). -/
  | subWordAccess
  /-- An `assert` or `clear` of a source line of 32 or more (R67). -/
  | sourceOutOfRange
  deriving DecidableEq, Repr

/-- A register's name, as the debug collaborator is told it (R150). -/
inductive RegName where
  | load | value | control | clear
  | irqStatus | fiqStatus | rawIntr | intSelect | intEnable | intEnClear | softInt | softIntClear
  | protection | vectAddr | defVectAddr
  | vectAddrSlot (i : Nat) | vectCntlSlot (i : Nat)
  | hardwareId
  deriving DecidableEq, Repr

/-- What an operation is, once decoded: a row of the opcode table; a bus access to an offset that
names no register (R68); a name query; or nothing the block does. -/
inductive Decoded where
  | instr (i : Instr)
  | unmapped (dev : Device)
  | name (n : Option RegName)
  | rejected (why : Reject)
  deriving DecidableEq, Repr

/-! ### Fields of a key (R65, R69) -/

/-- `cls`, bits 15:14. -/
def keyClass (k : Key) : Nat := (k >>> 14).toNat

/-- `z`, bit 13 (classes 00 and 01). -/
def keyZ (k : Key) : Bool := k.getLsbD 13

/-- The slot index `i = off[5:2]` of a VectAddr[i] or VectCntl[i] key. -/
def keySlot (k : Key) : Nat := ((k >>> 2) &&& 0xF#16).toNat

/-- The source line `s = key[4:0]` of an `assert` or `clear` key. -/
def keySource (k : Key) : Nat := (k &&& 0x1F#16).toNat

/-! ### The opcode table (R70, R71, R72) -/

/-- One row: the mnemonic, `match` and `mask` of spec/opcode_table.json, and the operation it stands
for, built from the key's operand fields and the data word. -/
structure OpcodeRow where
  mnemonic : String
  bits     : Key
  mask     : Key
  build    : Key → Word → Instr

/-- `(key & mask) = match` (R68). -/
def OpcodeRow.selects (r : OpcodeRow) (k : Key) : Bool := (k &&& r.mask) == r.bits

/-- The Timer operations (R70). -/
def timerRows : List OpcodeRow :=
  [ ⟨"TMR_LOAD_RD", 0x0000#16, 0xFFFF#16, fun _ _ => .tmrLoadRd⟩
  , ⟨"TMR_LOAD_WR", 0x1000#16, 0xFFFF#16, fun _ v => .tmrLoadWr v⟩
  , ⟨"TMR_VALUE_RD", 0x0004#16, 0xFFFF#16, fun _ _ => .tmrValueRd⟩
  , ⟨"TMR_VALUE_WR", 0x1004#16, 0xFFFF#16, fun _ v => .tmrValueWr v⟩
  , ⟨"TMR_CTRL_RD", 0x0008#16, 0xFFFF#16, fun _ _ => .tmrCtrlRd⟩
  , ⟨"TMR_CTRL_WR", 0x1008#16, 0xFFFF#16, fun _ v => .tmrCtrlWr v⟩
  , ⟨"TMR_CLEAR_RD", 0x000C#16, 0xFFFF#16, fun _ _ => .tmrClearRd⟩
  , ⟨"TMR_CLEAR_WR", 0x100C#16, 0xFFFF#16, fun _ v => .tmrClearWr v⟩ ]

/-- The Vic operations on status, routing, enable and software interrupts (R71). -/
def vicMaskRows : List OpcodeRow :=
  [ ⟨"VIC_IRQSTATUS_RD", 0x4000#16, 0xFFFF#16, fun _ _ => .vicIrqStatusRd⟩
  , ⟨"VIC_IRQSTATUS_WR", 0x5000#16, 0xFFFF#16, fun _ v => .vicIrqStatusWr v⟩
  , ⟨"VIC_FIQSTATUS_RD", 0x4004#16, 0xFFFF#16, fun _ _ => .vicFiqStatusRd⟩
  , ⟨"VIC_FIQSTATUS_WR", 0x5004#16, 0xFFFF#16, fun _ v => .vicFiqStatusWr v⟩
  , ⟨"VIC_RAWINTR_RD", 0x4008#16, 0xFFFF#16, fun _ _ => .vicRawIntrRd⟩
  , ⟨"VIC_RAWINTR_WR", 0x5008#16, 0xFFFF#16, fun _ v => .vicRawIntrWr v⟩
  , ⟨"VIC_INTSELECT_RD", 0x400C#16, 0xFFFF#16, fun _ _ => .vicIntSelectRd⟩
  , ⟨"VIC_INTSELECT_WR", 0x500C#16, 0xFFFF#16, fun _ v => .vicIntSelectWr v⟩
  , ⟨"VIC_INTENABLE_RD", 0x4010#16, 0xFFFF#16, fun _ _ => .vicIntEnableRd⟩
  , ⟨"VIC_INTENABLE_WR", 0x5010#16, 0xFFFF#16, fun _ v => .vicIntEnableWr v⟩
  , ⟨"VIC_INTENCLEAR_RD", 0x4014#16, 0xFFFF#16, fun _ _ => .vicIntEnClearRd⟩
  , ⟨"VIC_INTENCLEAR_WR", 0x5014#16, 0xFFFF#16, fun _ v => .vicIntEnClearWr v⟩
  , ⟨"VIC_SOFTINT_RD", 0x4018#16, 0xFFFF#16, fun _ _ => .vicSoftIntRd⟩
  , ⟨"VIC_SOFTINT_WR", 0x5018#16, 0xFFFF#16, fun _ v => .vicSoftIntWr v⟩
  , ⟨"VIC_SOFTINTCLEAR_RD", 0x401C#16, 0xFFFF#16, fun _ _ => .vicSoftIntClearRd⟩
  , ⟨"VIC_SOFTINTCLEAR_WR", 0x501C#16, 0xFFFF#16, fun _ v => .vicSoftIntClearWr v⟩ ]

/-- The Vic operations on Protection and the vector registers (R71). -/
def vicVectorRows : List OpcodeRow :=
  [ ⟨"VIC_PROTECTION_RD", 0x4020#16, 0xFFFF#16, fun _ _ => .vicProtectionRd⟩
  , ⟨"VIC_PROTECTION_WR", 0x5020#16, 0xFFFF#16, fun _ v => .vicProtectionWr v⟩
  , ⟨"VIC_VECTADDR_RD", 0x4030#16, 0xFFFF#16, fun _ _ => .vicVectAddrRd⟩
  , ⟨"VIC_VECTADDR_WR", 0x5030#16, 0xFFFF#16, fun _ v => .vicVectAddrWr v⟩
  , ⟨"VIC_DEFVECTADDR_RD", 0x4034#16, 0xFFFF#16, fun _ _ => .vicDefVectAddrRd⟩
  , ⟨"VIC_DEFVECTADDR_WR", 0x5034#16, 0xFFFF#16, fun _ v => .vicDefVectAddrWr v⟩
  , ⟨"VIC_VECTADDRn_RD", 0x4100#16, 0xFFC3#16, fun k _ => .vicVectAddrSlotRd (keySlot k)⟩
  , ⟨"VIC_VECTADDRn_WR", 0x5100#16, 0xFFC3#16, fun k v => .vicVectAddrSlotWr (keySlot k) v⟩
  , ⟨"VIC_VECTCNTLn_RD", 0x4200#16, 0xFFC3#16, fun k _ => .vicVectCntlSlotRd (keySlot k)⟩
  , ⟨"VIC_VECTCNTLn_WR", 0x5200#16, 0xFFC3#16, fun k v => .vicVectCntlSlotWr (keySlot k) v⟩ ]

/-- The Vic operations on the identification words (R71). -/
def vicIdentRows : List OpcodeRow :=
  [ ⟨"VIC_HWID0_RD", 0x4FE0#16, 0xFFFF#16, fun _ _ => .vicHwId0Rd⟩
  , ⟨"VIC_HWID1_RD", 0x4FE4#16, 0xFFFF#16, fun _ _ => .vicHwId1Rd⟩
  , ⟨"VIC_HWID2_RD", 0x4FE8#16, 0xFFFF#16, fun _ _ => .vicHwId2Rd⟩
  , ⟨"VIC_HWID3_RD", 0x4FEC#16, 0xFFFF#16, fun _ _ => .vicHwId3Rd⟩
  , ⟨"VIC_HWID0_WR", 0x5FE0#16, 0xFFFF#16, fun _ v => .vicHwId0Wr v⟩
  , ⟨"VIC_HWID1_WR", 0x5FE4#16, 0xFFFF#16, fun _ v => .vicHwId1Wr v⟩
  , ⟨"VIC_HWID2_WR", 0x5FE8#16, 0xFFFF#16, fun _ v => .vicHwId2Wr v⟩
  , ⟨"VIC_HWID3_WR", 0x5FEC#16, 0xFFFF#16, fun _ v => .vicHwId3Wr v⟩ ]

/-- The Vic port operations (R72). -/
def vicPortRows : List OpcodeRow :=
  [ ⟨"VIC_ASSERT", 0x8000#16, 0xFFE0#16, fun k _ => .vicAssert (keySource k)⟩
  , ⟨"VIC_CLEAR", 0x9000#16, 0xFFE0#16, fun k _ => .vicClear (keySource k)⟩
  , ⟨"VIC_IRQ", 0xA000#16, 0xFFFF#16, fun _ _ => .vicIrq⟩
  , ⟨"VIC_FIQ", 0xB000#16, 0xFFFF#16, fun _ _ => .vicFiq⟩ ]

/-- The opcode table, all 46 rows. -/
def opcodeTable : List OpcodeRow :=
  timerRows ++ vicMaskRows ++ vicVectorRows ++ vicIdentRows ++ vicPortRows

/-! ### Decoding (R68) -/

/-- A key that matches no row is handled by its class (R68, R73): a bus access to an unmapped or
misaligned offset, or a key that is no operation. -/
def decodeUnmatched (k : Key) : Decoded :=
  if keyClass k = 3 then .rejected .reservedClass
  else if keyClass k = 2 then .rejected .portBitsSet
  else if keyZ k then .rejected .zBitSet
  else if keyClass k = 0 then .unmapped .timer
  else .unmapped .vic

/-- A key selects the row of the opcode table that matches it (R68). -/
def decode (w : OpWords) : Decoded :=
  match opcodeTable.find? (fun r => r.selects w.key) with
  | some r => .instr (r.build w.key w.data)
  | none => decodeUnmatched w.key

/-! ### Forming keys (R66, R67) -/

/-- The key of a bus access, `cls << 14 | dir << 12 | off`; an offset above 0xFFF has none (R66). -/
def busKey (dev : Device) (dir : Dir) (off : Nat) : Option Key :=
  let cls : Key := match dev with
    | .timer => 0
    | .vic => 1
  let d : Key := match dir with
    | .read => 0
    | .write => 1
  if off ≤ 0xFFF then some ((cls <<< 14) ||| (d <<< 12) ||| BitVec.ofNat 16 off) else none

/-- A bus access: sub-word accesses are refused (R48); an access whose offset has no key is an access
to an unmapped offset (R66). -/
def decodeBus (dev : Device) (dir : Dir) (size : AccessSize) (off : Nat) (data : Word) : Decoded :=
  match size with
  | .byte => .rejected .subWordAccess
  | .halfword => .rejected .subWordAccess
  | .word =>
    match busKey dev dir off with
    | some k => decode ⟨k, data⟩
    | none => .unmapped dev

/-- The name of a Timer register, by its offset (R38, R150). -/
def timerRegName (off : Nat) : Option RegName :=
  if off = 0x00 then some .load
  else if off = 0x04 then some .value
  else if off = 0x08 then some .control
  else if off = 0x0C then some .clear
  else none

/-- The name of a Vic register, by its offset (R41, R150). -/
def vicRegName (off : Nat) : Option RegName :=
  if off % 4 ≠ 0 then none
  else if 0x100 ≤ off ∧ off ≤ 0x13C then some (.vectAddrSlot ((off - 0x100) / 4))
  else if 0x200 ≤ off ∧ off ≤ 0x23C then some (.vectCntlSlot ((off - 0x200) / 4))
  else if 0xFE0 ≤ off ∧ off ≤ 0xFEC then some .hardwareId
  else if off = 0x000 then some .irqStatus
  else if off = 0x004 then some .fiqStatus
  else if off = 0x008 then some .rawIntr
  else if off = 0x00C then some .intSelect
  else if off = 0x010 then some .intEnable
  else if off = 0x014 then some .intEnClear
  else if off = 0x018 then some .softInt
  else if off = 0x01C then some .softIntClear
  else if off = 0x020 then some .protection
  else if off = 0x030 then some .vectAddr
  else if off = 0x034 then some .defVectAddr
  else none

/-- The name of the register at an offset of a device; any other offset has no name (R150). -/
def registerName (dev : Device) (off : Nat) : Option RegName :=
  match dev with
  | .timer => timerRegName off
  | .vic => vicRegName off

/-- The human-readable text of a register's name (R150, D34). -/
def RegName.text : RegName → String
  | .load => "Load" | .value => "Value" | .control => "Control" | .clear => "Clear"
  | .irqStatus => "IRQStatus" | .fiqStatus => "FIQStatus" | .rawIntr => "RawIntr"
  | .intSelect => "IntSelect" | .intEnable => "IntEnable" | .intEnClear => "IntEnClear"
  | .softInt => "SoftInt" | .softIntClear => "SoftIntClear" | .protection => "Protection"
  | .vectAddr => "VectAddr" | .defVectAddr => "DefVectAddr"
  | .vectAddrSlot i => "VectAddr[" ++ toString i ++ "]"
  | .vectCntlSlot i => "VectCntl[" ++ toString i ++ "]"
  | .hardwareId => "hardware ID"

/-- What an operation is.  A port operation has the key of R67, which a source line of 32 or more
cannot be encoded in. -/
def Operation.decode : Operation → Decoded
  | .key k d => Sys2Proof.decode ⟨k, d⟩
  | .bus dev dir size off d => decodeBus dev dir size off d
  | .assertLine s =>
    if s < 32 then Sys2Proof.decode ⟨0x8000#16 ||| BitVec.ofNat 16 s, 0⟩
    else .rejected .sourceOutOfRange
  | .clearLine s =>
    if s < 32 then Sys2Proof.decode ⟨0x9000#16 ||| BitVec.ofNat 16 s, 0⟩
    else .rejected .sourceOutOfRange
  | .irqLine => Sys2Proof.decode ⟨0xA000#16, 0⟩
  | .fiqLine => Sys2Proof.decode ⟨0xB000#16, 0⟩
  | .nameQuery dev off => .name (registerName dev off)

/-! ### Encoding (R66, R67, R69) -/

/-- The key of a Timer access: class 00 (R66). -/
def timerKey (dir : Key) (off : Key) : Key := (dir <<< 12) ||| off

/-- The key of a Vic access: class 01 (R66). -/
def vicKey (dir : Key) (off : Key) : Key := 0x4000#16 ||| (dir <<< 12) ||| off

/-- The key of a port operation: class 10, `pop` in bits 13:12, the source line in bits 4:0 (R67). -/
def portKey (pop : Key) (src : Nat) : Key :=
  0x8000#16 ||| (pop <<< 12) ||| BitVec.ofNat 16 src

/-- The byte offset of slot `i`'s register in the table at `base`: `base + 4i` (R41). -/
def slotOffset (base i : Nat) : Key := BitVec.ofNat 16 (base + 4 * i)

/-- The words of a well-formed operation.  A Read and a port operation leave the data lane 0. -/
def encode : Instr → OpWords
  | .tmrLoadRd => ⟨timerKey 0 0x000#16, 0⟩
  | .tmrLoadWr v => ⟨timerKey 1 0x000#16, v⟩
  | .tmrValueRd => ⟨timerKey 0 0x004#16, 0⟩
  | .tmrValueWr v => ⟨timerKey 1 0x004#16, v⟩
  | .tmrCtrlRd => ⟨timerKey 0 0x008#16, 0⟩
  | .tmrCtrlWr v => ⟨timerKey 1 0x008#16, v⟩
  | .tmrClearRd => ⟨timerKey 0 0x00C#16, 0⟩
  | .tmrClearWr v => ⟨timerKey 1 0x00C#16, v⟩
  | .vicIrqStatusRd => ⟨vicKey 0 0x000#16, 0⟩
  | .vicIrqStatusWr v => ⟨vicKey 1 0x000#16, v⟩
  | .vicFiqStatusRd => ⟨vicKey 0 0x004#16, 0⟩
  | .vicFiqStatusWr v => ⟨vicKey 1 0x004#16, v⟩
  | .vicRawIntrRd => ⟨vicKey 0 0x008#16, 0⟩
  | .vicRawIntrWr v => ⟨vicKey 1 0x008#16, v⟩
  | .vicIntSelectRd => ⟨vicKey 0 0x00C#16, 0⟩
  | .vicIntSelectWr v => ⟨vicKey 1 0x00C#16, v⟩
  | .vicIntEnableRd => ⟨vicKey 0 0x010#16, 0⟩
  | .vicIntEnableWr v => ⟨vicKey 1 0x010#16, v⟩
  | .vicIntEnClearRd => ⟨vicKey 0 0x014#16, 0⟩
  | .vicIntEnClearWr v => ⟨vicKey 1 0x014#16, v⟩
  | .vicSoftIntRd => ⟨vicKey 0 0x018#16, 0⟩
  | .vicSoftIntWr v => ⟨vicKey 1 0x018#16, v⟩
  | .vicSoftIntClearRd => ⟨vicKey 0 0x01C#16, 0⟩
  | .vicSoftIntClearWr v => ⟨vicKey 1 0x01C#16, v⟩
  | .vicProtectionRd => ⟨vicKey 0 0x020#16, 0⟩
  | .vicProtectionWr v => ⟨vicKey 1 0x020#16, v⟩
  | .vicVectAddrRd => ⟨vicKey 0 0x030#16, 0⟩
  | .vicVectAddrWr v => ⟨vicKey 1 0x030#16, v⟩
  | .vicDefVectAddrRd => ⟨vicKey 0 0x034#16, 0⟩
  | .vicDefVectAddrWr v => ⟨vicKey 1 0x034#16, v⟩
  | .vicVectAddrSlotRd i => ⟨vicKey 0 (slotOffset 0x100 i), 0⟩
  | .vicVectAddrSlotWr i v => ⟨vicKey 1 (slotOffset 0x100 i), v⟩
  | .vicVectCntlSlotRd i => ⟨vicKey 0 (slotOffset 0x200 i), 0⟩
  | .vicVectCntlSlotWr i v => ⟨vicKey 1 (slotOffset 0x200 i), v⟩
  | .vicHwId0Rd => ⟨vicKey 0 0xFE0#16, 0⟩
  | .vicHwId1Rd => ⟨vicKey 0 0xFE4#16, 0⟩
  | .vicHwId2Rd => ⟨vicKey 0 0xFE8#16, 0⟩
  | .vicHwId3Rd => ⟨vicKey 0 0xFEC#16, 0⟩
  | .vicHwId0Wr v => ⟨vicKey 1 0xFE0#16, v⟩
  | .vicHwId1Wr v => ⟨vicKey 1 0xFE4#16, v⟩
  | .vicHwId2Wr v => ⟨vicKey 1 0xFE8#16, v⟩
  | .vicHwId3Wr v => ⟨vicKey 1 0xFEC#16, v⟩
  | .vicAssert src => ⟨portKey 0 src, 0⟩
  | .vicClear src => ⟨portKey 1 src, 0⟩
  | .vicIrq => ⟨portKey 2 0, 0⟩
  | .vicFiq => ⟨portKey 3 0, 0⟩

/-- An operation as one number, bit 0 the key's least significant bit: key in bits 15:0, data word in
bits 47:16. -/
def OpWords.toNat (w : OpWords) : Nat := w.key.toNat + w.data.toNat * 2 ^ 16

/-- The words in a number of `nbits` bits; the bits above `nbits` are 0. -/
def OpWords.ofBits (nbits w : Nat) : OpWords :=
  let n := w % 2 ^ nbits
  ⟨BitVec.ofNat 16 n, BitVec.ofNat 32 (n / 2 ^ 16)⟩

/-- The operation the decoder reads from bits numbered as spec/opcode_table.json numbers them. -/
def decodeTableWord (nbits w : Nat) : Option Instr :=
  match decode (OpWords.ofBits nbits w) with
  | .instr i => some i
  | .unmapped _ => none
  | .name _ => none
  | .rejected _ => none

/-- The device an operation drives: class 00 is the Timer's, 01 and 10 are the Vic's (R65). -/
def Instr.device : Instr → Device
  | .tmrLoadRd | .tmrLoadWr _ | .tmrValueRd | .tmrValueWr _ | .tmrCtrlRd | .tmrCtrlWr _
  | .tmrClearRd | .tmrClearWr _ => .timer
  | .vicIrqStatusRd | .vicIrqStatusWr _ | .vicFiqStatusRd | .vicFiqStatusWr _ | .vicRawIntrRd
  | .vicRawIntrWr _ | .vicIntSelectRd | .vicIntSelectWr _ | .vicIntEnableRd | .vicIntEnableWr _
  | .vicIntEnClearRd | .vicIntEnClearWr _ | .vicSoftIntRd | .vicSoftIntWr _ | .vicSoftIntClearRd
  | .vicSoftIntClearWr _ | .vicProtectionRd | .vicProtectionWr _ | .vicVectAddrRd
  | .vicVectAddrWr _ | .vicDefVectAddrRd | .vicDefVectAddrWr _ | .vicVectAddrSlotRd _
  | .vicVectAddrSlotWr _ _ | .vicVectCntlSlotRd _ | .vicVectCntlSlotWr _ _ | .vicHwId0Rd
  | .vicHwId1Rd | .vicHwId2Rd | .vicHwId3Rd | .vicHwId0Wr _ | .vicHwId1Wr _ | .vicHwId2Wr _
  | .vicHwId3Wr _ | .vicAssert _ | .vicClear _ | .vicIrq | .vicFiq => .vic

end Sys2Proof
end

