-- ==== Sys2Proof/Machine/State.lean ====
section
/-! DEFINITION. The state of the machine, plain data, and the state right after construction
(spec/10_state.md R16 to R45, spec/70_reset_and_hazards.md R153 to R155).

The block has no registers file, flags, program counter or memory (R16, R17, R18, R47): its state is
the fields of its Timer and Vic instances and the run-wide mark `halted`.  The other fields of
`State` are the model's own: the operations waiting to be run, the inputs of the one being run, what
the last one reported, and the counter of free values (assumptions 3 and 4). -/

namespace Sys2Proof.Machine

open Sys2Proof

/-- One Timer instance: exactly the fields of R19. -/
structure Timer where
  bits    : Width
  load    : Option Nat
  value   : Nat
  enabled : Bool
  mode    : Mode
  clksel  : ClkSel
  frac    : Nat
  last    : Nat
  deriving DecidableEq, Repr

/-- One vector slot: its source line 0..31, its ISR address and its enable flag (R30, R36). -/
structure Slot where
  src  : BitVec 5
  addr : Word
  en   : Bool
  deriving DecidableEq, Repr

/-- One Vic instance: exactly the fields of R30.  Slot 0 has the highest priority. -/
structure Vic where
  hw      : Word
  sw      : Word
  enable  : Word
  select  : Word
  defvect : Word
  slots   : Vector Slot 16
  deriving DecidableEq, Repr

/-- The kinds of a fatal outcome (R136). -/
inductive FatalKind where
  /-- A Load read with no load value (R80). -/
  | loadReadUnset
  /-- A Load write while the timer is enabled (R81, R159). -/
  | loadWriteEnabled
  /-- A periodic wrap with no load value (R79). -/
  | reloadUnset
  /-- A periodic wrap with load value 0 (R79, D12). -/
  | reloadZeroLoad
  deriving DecidableEq, Repr

/-- The outcome of a bus access (R132): `Ok(v)` of a read and `Ok` of a write, and the outcomes of the
four error categories. -/
inductive AccessOutcome where
  | okRead (v : Word)
  | okWrite
  | invalidAccess
  | unexpectedAddress
  | unimplemented
  | stubRead (v : Word)
  | stubWrite
  | fatal (kind : FatalKind)
  deriving DecidableEq, Repr

/-- What the last operation reported to the agent that issued it: nothing yet; the outcome of a bus
access (R132); that a port call is done (`assert` and `clear` have no result, R127, R128); the level
of an output line (R129, R130); a register's name (R150). -/
inductive Response where
  | none
  | access (o : AccessOutcome)
  | portDone
  | level (on : Bool)
  | name (n : Option RegName)
  deriving DecidableEq, Repr

/-- An operation an agent has issued: the instance it addresses (R46), the clock oracle's reading
(R13; a Vic operation does not use it, D30), and what it asks. -/
structure Request where
  inst : Nat
  now  : Nat
  op   : Operation
  deriving DecidableEq, Repr

/-- The state of the block and of its interface. -/
structure State where
  timers   : List Timer
  vics     : List Vic
  halted   : Bool
  inst     : Nat
  now      : Nat
  response : Response
  pending  : List Request
  draws    : Nat
  deriving DecidableEq, Repr

/-- Why the machine stops with a fault. -/
inductive Fault where
  /-- Raised by every operation once a fatal outcome has set `halted`: "Afterwards no operation on
  any instance of the block has a step" (R137, U15 `stuck`).  Safe: the model has no step where the
  spec has none. -/
  | halted
  deriving DecidableEq, Repr

/-- Why the model gives no step. -/
inductive Refusal where
  /-- Raised by an arm of `exec` that has no meaning yet; no arm is left so.  Safe. -/
  | notModelled (mnemonic : String)
  /-- Raised by `step` when an agent asks for something that is no operation of the block: a reserved
  key (R68, R73), a sub-word access (R48), a source line of 32 or more (R67).  Safe: the spec says a
  model refuses it. -/
  | badOperation (why : Reject)
  /-- Raised by a Timer access whose clock reading is before `T.last`: no step (R60, R77, U12).
  Safe. -/
  | clockWentBack
  /-- Raised by an operation on an instance that the platform does not have; the bus never issues one
  (R46, R47).  Safe. -/
  | noSuchInstance
  /-- Raised by the meaning of an ill-formed VectAddr[i] or VectCntl[i] access, slot 16 or more; no
  key decodes to one (R36, R69).  Safe. -/
  | slotOutOfRange
  /-- Raised by the meaning of an ill-formed `assert` or `clear`, source line 32 or more; no key
  decodes to one (R67, U13).  Safe. -/
  | sourceOutOfRange
  /-- Raised by `step` when no agent has issued an operation: the block has no step of its own (R14,
  R18).  Safe. -/
  | noOperation
  deriving DecidableEq, Repr

/-- `NewTimer(label, bits, now0)` (R153).  The label is diagnostic and no state (R28). -/
def newTimer (p : TimerParams) (now0 : Nat) : Timer :=
  { bits := p.bits
    load := none
    value := p.resetValue
    enabled := false
    mode := p.resetMode
    clksel := p.resetClksel
    frac := 0
    last := now0 }

/-- A slot right after construction (R30, R154). -/
def newSlot : Slot := { src := 0, addr := 0, en := false }

/-- `NewVic(label)`: "all state zeroed" (R30, R154). -/
def newVic : Vic :=
  { hw := 0, sw := 0, enable := 0, select := 0, defvect := 0, slots := Vector.replicate 16 newSlot }

/-- The block right after the construction of a platform's instances: the only reset there is (R153,
R154, R155).  No operation is waiting, and none has reported anything (assumption 3). -/
def State.construct (p : Platform) : State :=
  { timers := p.timers.map (fun t => newTimer t p.now0)
    vics := List.replicate p.vics newVic
    halted := false
    inst := 0
    now := p.now0
    response := .none
    pending := []
    draws := 0 }

/-- The machine right after reset: the construction of `Config.platform` (assumptions 1, 2, 5). -/
def State.reset : State := State.construct Config.platform

end Sys2Proof.Machine
end

