-- ==== Sys2Proof/Machine/Operands.lean ====
section
/-! DEFINITION. The operand forms: what an operation reads out of its data word, and how a field is
packed into the word a read returns (spec/30_encoding.md R69, spec/10_state.md R20, R25, R38 to R43).
Nothing is sign-extended, scaled or shifted (R69). -/

namespace Sys2Proof.Machine

open Sys2Proof

/-- `T.bits` as a number (R6). -/
def widthBits : Width → Nat
  | .w16 => 16
  | .w32 => 32

/-- `mask = 2^T.bits − 1`: 0xFFFF or 0xFFFFFFFF (R6, R20). -/
def wrapMask (w : Width) : Nat := 2 ^ widthBits w - 1

/-- `clock_khz`: 2 or 508 (R25). -/
def clockKhz : ClkSel → Nat
  | .k2 => 2
  | .k508 => 508

/-- The accumulator's modulus: 1,000,000 microticks per tick (R6). -/
def microticksPerTick : Nat := 1000000

/-- `zext_32`: a natural within 32 bits as a word (R9). -/
def zext32 (n : Nat) : Word := BitVec.ofNat 32 n

/-- The masked word of a Load write, `v & mask` (R69, R81). -/
def loadField (w : Width) (v : Word) : Nat := v.toNat &&& wrapMask w

/-- Bit 7 of a Control word: the new value of `T.enabled` (R39, D9). -/
def controlEnable (v : Word) : Bool := v.getLsbD 7

/-- Bit 6 of a Control word: 1 is `Periodic`, 0 is `FreeRunning` (R39, D8). -/
def controlMode (v : Word) : Mode := if v.getLsbD 6 then .periodic else .freeRunning

/-- Bit 3 of a Control word: 1 is `K508`, 0 is `K2` (R39, D7). -/
def controlClksel (v : Word) : ClkSel := if v.getLsbD 3 then .k508 else .k2

/-- Bit 5 of a VectCntl word: the slot's enable flag (R42). -/
def slotEnable (v : Word) : Bool := v.getLsbD 5

/-- Bits 4:0 of a VectCntl word: the slot's source line (R42). -/
def slotSource (v : Word) : BitVec 5 := v.truncate 5

/-- The bit of source line `s` in a bitmap, `1 << s` (R43, R127). -/
def lineBit (s : Nat) : Word := 1#32 <<< s

end Sys2Proof.Machine
end

