-- ==== Sys2Proof/Machine/Flags.lean ====
section
/-! DEFINITION. The derived signals and packed status words.  The block has no condition codes
(spec/10_state.md R17); what a read computes from the state is here: the Vic's signals (R37), the
Control word (spec/40_timer.md R84), the VectCntl word (spec/41_vic.md R116), vector resolution
(R109) and the codes of the outcomes (spec/60_exceptions.md R132). -/

namespace Sys2Proof.Machine

open Sys2Proof

/-- `raw(V) = V.hw | V.sw` (R37). -/
def rawLines (v : Vic) : Word := v.hw ||| v.sw

/-- `irqBits(V) = raw(V) & V.enable & ~V.select` (R37). -/
def irqBits (v : Vic) : Word := rawLines v &&& v.enable &&& ~~~v.select

/-- `fiqBits(V) = raw(V) & V.enable & V.select` (R37). -/
def fiqBits (v : Vic) : Word := rawLines v &&& v.enable &&& v.select

/-- `irq(V)`: the IRQ output line (R37, R129). -/
def irqLine (v : Vic) : Bool := irqBits v != 0

/-- `fiq(V)`: the FIQ output line (R37, R130). -/
def fiqLine (v : Vic) : Bool := fiqBits v != 0

/-- A slot matches when it is enabled and its source bit is among the pending IRQ lines (R109). -/
def slotMatches (pendingLines : Word) (sl : Slot) : Bool :=
  sl.en && pendingLines.getLsbD sl.src.toNat

/-- `isr_address(V)`: with an FIQ pending or no IRQ pending, the default vector address; otherwise the
address of the first matching slot, slot 0 first, and the default address if none matches (R109). -/
def isrAddress (v : Vic) : Word :=
  if fiqBits v ≠ 0 ∨ irqBits v = 0 then v.defvect
  else
    match v.slots.toList.find? (slotMatches (irqBits v)) with
    | some sl => sl.addr
    | none => v.defvect

/-- The Control word: `clksel` at bit 3, `mode` at bit 6, `enabled` at bit 7, the rest 0 (R84). -/
def controlWord (t : Timer) : Word :=
  let clk : Word := match t.clksel with
    | .k508 => 0x08
    | .k2 => 0
  let mode : Word := match t.mode with
    | .periodic => 0x40
    | .freeRunning => 0
  let en : Word := if t.enabled then 0x80 else 0
  clk ||| mode ||| en

/-- The VectCntl word: the enable flag at bit 5, the source line in bits 4:0, the rest 0 (R116). -/
def vectCntlWord (sl : Slot) : Word := (if sl.en then 0x20 else 0) ||| sl.src.zeroExtend 32

/-- The code of an outcome, by the category of the source's §7, and `a` or `b` within category 3
(R132). -/
def outcomeCode : AccessOutcome → String
  | .okRead _ => "0"
  | .okWrite => "0"
  | .invalidAccess => "1"
  | .unexpectedAddress => "2"
  | .unimplemented => "3a"
  | .stubRead _ => "3b"
  | .stubWrite => "3b"
  | .fatal _ => "4"

/-- The recoverable outcomes: codes 1, 2, 3a and 3b (R138). -/
def isRecoverable : AccessOutcome → Bool
  | .okRead _ => false
  | .okWrite => false
  | .invalidAccess => true
  | .unexpectedAddress => true
  | .unimplemented => true
  | .stubRead _ => true
  | .stubWrite => true
  | .fatal _ => false

end Sys2Proof.Machine
end

