-- ==== Sys2Proof/Machine/Ops.lean ====
section
/-! DEFINITION. The shared operations: the Timer's lazy update, ending an access fatally, the
prologues every Timer and Vic operation runs, and taking the next operation off the queue
(spec/40_timer.md R77 to R79, spec/41_vic.md R90, spec/60_exceptions.md R137, R139). -/

namespace Sys2Proof.Machine

open Sys2Proof

/-- What an operation answers. -/
abbrev StepResult := Host.Outcome State Fault Refusal

/-! ### Reports -/

/-- Report what an operation answered to the agent that issued it. -/
def State.respond (s : State) (r : Response) : State := { s with response := r }

/-- Replace the Timer instance the operation addresses. -/
def State.putTimer (s : State) (t : Timer) : State := { s with timers := s.timers.set s.inst t }

/-- Replace the Vic instance the operation addresses. -/
def State.putVic (s : State) (v : Vic) : State := { s with vics := s.vics.set s.inst v }

/-! ### Ending an access fatally (R136, R137) -/

/-- The Timer a fatal access left: "The state the fatal access left is not specified and must not be
read" (R137).  Every field is a free value (assumption 4), but for `T.bits`, which "never changes
after construction" (R20). -/
def unspecifiedTimer (bits : Width) (n : Nat) : Timer :=
  { bits := bits
    load := Config.fatalLoad n
    value := Config.fatalValue n
    enabled := Config.fatalEnabled n
    mode := Config.fatalMode n
    clksel := Config.fatalClksel n
    frac := Config.fatalFrac n
    last := Config.fatalLast n }

/-- `raise Fatal(kind)` in an access to Timer `t`: the outcome is reported, the run-wide mark `halted`
is set and never cleared, and the instance's state is unspecified (R10, R137). -/
def State.raiseFatal (s : State) (t : Timer) (kind : FatalKind) : State :=
  { s with
    timers := s.timers.set s.inst (unspecifiedTimer t.bits s.draws)
    halted := true
    response := .access (.fatal kind)
    draws := s.draws + 1 }

/-! ### The lazy update (R78, R79) -/

/-- `PeriodicStep(ticks)`: the new counter value, or the fatal kind of a wrap that finds no load value
or a load value of 0 (R79). -/
def periodicStep (load : Option Nat) (value ticks : Nat) : Except FatalKind Nat :=
  if ticks ≤ value then .ok (value - ticks)
  else
    match load with
    | none => .error .reloadUnset
    | some l =>
      let e := ticks - value
      if l = 0 then .error .reloadZeroLoad
      else if e ≤ l then .ok (l - e)
      else .ok (l - 1 - ((e - 1) % l))

/-- The free-running decrement: `(value − ticks) mod 2^bits`, where the difference may be negative and
`mod` gives its representative in `[0, 2^bits)` (R9, R78). -/
def freeRunningStep (bits : Width) (value ticks : Nat) : Nat :=
  (((value : Int) - (ticks : Int)) % ((2 ^ widthBits bits : Nat) : Int)).toNat

/-- The counter after `ticks` whole ticks, by the Timer's mode (R78). -/
def countDown (t : Timer) (ticks : Nat) : Except FatalKind Nat :=
  match t.mode with
  | .freeRunning => .ok (freeRunningStep t.bits t.value ticks)
  | .periodic => periodicStep t.load t.value ticks

/-- The microticks an enabled Timer has gathered by `now`: `elapsed × clock_khz + frac` (R78). -/
def microticks (now : Nat) (t : Timer) : Nat := (now - t.last) * clockKhz t.clksel + t.frac

/-- `LazyUpdate(now)`: a disabled Timer only refreshes its timestamp; an enabled one counts down by
the whole ticks elapsed and keeps the remainder (R78). -/
def lazyUpdate (now : Nat) (t : Timer) : Except FatalKind Timer :=
  if t.enabled then
    match countDown t (microticks now t / microticksPerTick) with
    | .error kind => .error kind
    | .ok value =>
      .ok { t with value := value, frac := microticks now t % microticksPerTick, last := now }
  else .ok { t with last := now }

/-! ### The prologues (R77, R90) -/

/-- A Timer access (R77): no step once halted, none if the clock went back; then the lazy update,
which may end the access fatally; then the register's own rule, on the updated Timer.  This is the
precedence of R139. -/
def timerAccess (rule : Timer → Except FatalKind (Timer × AccessOutcome)) (s : State) : StepResult :=
  if s.halted then .fault .halted
  else
    match s.timers[s.inst]? with
    | none => .refused .noSuchInstance
    | some t =>
      if s.now < t.last then .refused .clockWentBack
      else
        match lazyUpdate s.now t with
        | .error kind => .next (s.raiseFatal t kind)
        | .ok u =>
          match rule u with
          | .error kind => .next (s.raiseFatal t kind)
          | .ok (w, o) => .next ((s.putTimer w).respond (.access o))

/-- A Vic operation that only reads (R90, R53): no step once halted; then its answer, from the Vic's
state. -/
def vicQuery (answer : Vic → Response) (s : State) : StepResult :=
  if s.halted then .fault .halted
  else
    match s.vics[s.inst]? with
    | none => .refused .noSuchInstance
    | some v => .next (s.respond (answer v))

/-- A Vic operation that edits the Vic's state and always succeeds (R90). -/
def vicUpdate (edit : Vic → Vic) (report : Response) (s : State) : StepResult :=
  if s.halted then .fault .halted
  else
    match s.vics[s.inst]? with
    | none => .refused .noSuchInstance
    | some v => .next ((s.putVic (edit v)).respond report)

/-- The address of slot `i`. -/
def slotAt (v : Vic) (i : Nat) (h : i < 16) : Slot := v.slots[i]

/-- Replace slot `i`. -/
def putSlot (v : Vic) (i : Nat) (h : i < 16) (sl : Slot) : Vic := { v with slots := v.slots.set i sl }

/-! ### Operations that are no row of the opcode table -/

/-- A Timer access to any offset but 0x00, 0x04, 0x08 and 0x0C, in either direction: the prologue,
then `UnexpectedAddress` (R88). -/
def execTmrUnmapped (s : State) : StepResult :=
  timerAccess (fun t => .ok (t, .unexpectedAddress)) s

/-- A Vic access to any offset not in R41, in either direction: `UnexpectedAddress` (R126). -/
def execVicUnmapped (s : State) : StepResult :=
  vicQuery (fun _ => .access .unexpectedAddress) s

/-- A register-name query: no lazy update and no change of state but the answer (R150). -/
def execNameQuery (n : Option RegName) (s : State) : StepResult :=
  if s.halted then .fault .halted else .next (s.respond (.name n))

/-! ### Taking the next operation (R18, R58) -/

/-- The state in which the operation of request `r` runs: `r` is off the queue, and the instance it
addresses and its clock reading are the inputs (R46). -/
def State.accept (s : State) (r : Request) (rest : List Request) : State :=
  { s with inst := r.inst, now := r.now, pending := rest }

/-- The oldest waiting operation, decoded, and the state it runs in. -/
def fetchOperation (s : State) : Option (Decoded × State) :=
  match s.pending with
  | [] => none
  | r :: rest => some (r.op.decode, s.accept r rest)

/-- The latest clock reading the block has seen: that of the last operation, or of a Timer's last
update. -/
def State.latestClock (s : State) : Nat := s.timers.foldl (fun m t => max m t.last) s.now

/-- The request that runs the operation of `nbits` bits `w` next, on the instance last addressed and
at the latest clock reading, which no Timer refuses (R60). -/
def fetchRequest (s : State) (nbits w : Nat) : Request :=
  let words := OpWords.ofBits nbits w
  { inst := s.inst, now := s.latestClock, op := .key words.key words.data }

end Sys2Proof.Machine
end

