-- ==== Sys2Proof/Machine/TimerOps.lean ====
section
/-! DEFINITION. The Timer's eight register operations (spec/40_timer.md R80 to R87).  Each meaning is
the register's own rule, run after the prologue and the lazy update of `timerAccess` (R77). -/

namespace Sys2Proof.Machine

open Sys2Proof

/-- The Load read's rule: the load value; `Fatal(LoadReadUnset)` if there is none (R80). -/
def loadReadRule (t : Timer) : Except FatalKind (Timer × AccessOutcome) :=
  match t.load with
  | none => .error .loadReadUnset
  | some n => .ok (t, .okRead (zext32 n))

/-- The Load write's rule: the masked word becomes both the load value and the count;
`Fatal(LoadWriteEnabled)` while the timer is enabled (R81). -/
def loadWriteRule (v : Word) (t : Timer) : Except FatalKind (Timer × AccessOutcome) :=
  if t.enabled then .error .loadWriteEnabled
  else .ok ({ t with load := some (loadField t.bits v), value := loadField t.bits v }, .okWrite)

/-- TMR_LOAD_RD (R80). -/
def execTmrLoadRd (s : State) : StepResult :=
  timerAccess loadReadRule s

/-- TMR_LOAD_WR (R81). -/
def execTmrLoadWr (v : Word) (s : State) : StepResult :=
  timerAccess (loadWriteRule v) s

/-- TMR_VALUE_RD (R82): the count, after the lazy update. -/
def execTmrValueRd (s : State) : StepResult :=
  timerAccess (fun t => .ok (t, .okRead (zext32 t.value))) s

/-- TMR_VALUE_WR (R83, C2): Value is read-only; the word is ignored. -/
def execTmrValueWr (_v : Word) (s : State) : StepResult :=
  timerAccess (fun t => .ok (t, .invalidAccess)) s

/-- TMR_CTRL_RD (R84): the packed Control word. -/
def execTmrCtrlRd (s : State) : StepResult :=
  timerAccess (fun t => .ok (t, .okRead (controlWord t))) s

/-- The Control write on an updated Timer: mode, clock and enable from the word; the fraction is
zeroed when the write enables, and the load value is cleared when it disables (R85). -/
def controlWrite (v : Word) (t : Timer) : Timer :=
  { t with
    mode := controlMode v
    clksel := controlClksel v
    frac := if !t.enabled && controlEnable v then 0 else t.frac
    load := if t.enabled && !controlEnable v then none else t.load
    enabled := controlEnable v }

/-- TMR_CTRL_WR (R85, C3, C6). -/
def execTmrCtrlWr (v : Word) (s : State) : StepResult :=
  timerAccess (fun t => .ok (controlWrite v t, .okWrite)) s

/-- TMR_CLEAR_RD (R86): not implemented, and no data word. -/
def execTmrClearRd (s : State) : StepResult :=
  timerAccess (fun t => .ok (t, .unimplemented)) s

/-- TMR_CLEAR_WR (R87): not implemented; the word is ignored. -/
def execTmrClearWr (_v : Word) (s : State) : StepResult :=
  timerAccess (fun t => .ok (t, .unimplemented)) s

end Sys2Proof.Machine
end

