-- ==== Sys2Proof/Machine/VicIdent.lean ====
section
/-! DEFINITION. The Vic's four identification words: constants, and read-only
(spec/41_vic.md R118 to R125, spec/00_scope.md R7, D22). -/

namespace Sys2Proof.Machine

open Sys2Proof

/-- VIC_HWID0_RD (R118). -/
def execVicHwId0Rd (s : State) : StepResult :=
  vicQuery (fun _ => .access (.okRead 0x00000090#32)) s

/-- VIC_HWID1_RD (R119). -/
def execVicHwId1Rd (s : State) : StepResult :=
  vicQuery (fun _ => .access (.okRead 0x00000011#32)) s

/-- VIC_HWID2_RD (R120). -/
def execVicHwId2Rd (s : State) : StepResult :=
  vicQuery (fun _ => .access (.okRead 0x00000004#32)) s

/-- VIC_HWID3_RD (R121). -/
def execVicHwId3Rd (s : State) : StepResult :=
  vicQuery (fun _ => .access (.okRead 0x00000000#32)) s

/-- VIC_HWID0_WR (R122): the word is ignored. -/
def execVicHwId0Wr (_w : Word) (s : State) : StepResult :=
  vicQuery (fun _ => .access .invalidAccess) s

/-- VIC_HWID1_WR (R123): the word is ignored. -/
def execVicHwId1Wr (_w : Word) (s : State) : StepResult :=
  vicQuery (fun _ => .access .invalidAccess) s

/-- VIC_HWID2_WR (R124): the word is ignored. -/
def execVicHwId2Wr (_w : Word) (s : State) : StepResult :=
  vicQuery (fun _ => .access .invalidAccess) s

/-- VIC_HWID3_WR (R125): the word is ignored. -/
def execVicHwId3Wr (_w : Word) (s : State) : StepResult :=
  vicQuery (fun _ => .access .invalidAccess) s

end Sys2Proof.Machine
end

