-- ==== Sys2Proof/Machine/VicMasks.lean ====
section
/-! DEFINITION. The Vic's status, routing, enable and software-interrupt registers
(spec/41_vic.md R91 to R106).  A read is a pure function of the Vic's state (R53). -/

namespace Sys2Proof.Machine

open Sys2Proof

/-- VIC_IRQSTATUS_RD (R91). -/
def execVicIrqStatusRd (s : State) : StepResult :=
  vicQuery (fun v => .access (.okRead (irqBits v))) s

/-- VIC_IRQSTATUS_WR (R92): read-only; the word is ignored. -/
def execVicIrqStatusWr (_w : Word) (s : State) : StepResult :=
  vicQuery (fun _ => .access .invalidAccess) s

/-- VIC_FIQSTATUS_RD (R93). -/
def execVicFiqStatusRd (s : State) : StepResult :=
  vicQuery (fun v => .access (.okRead (fiqBits v))) s

/-- VIC_FIQSTATUS_WR (R94): read-only; the word is ignored. -/
def execVicFiqStatusWr (_w : Word) (s : State) : StepResult :=
  vicQuery (fun _ => .access .invalidAccess) s

/-- VIC_RAWINTR_RD (R95): every active line, enabled or not. -/
def execVicRawIntrRd (s : State) : StepResult :=
  vicQuery (fun v => .access (.okRead (rawLines v))) s

/-- VIC_RAWINTR_WR (R96): read-only; the word is ignored. -/
def execVicRawIntrWr (_w : Word) (s : State) : StepResult :=
  vicQuery (fun _ => .access .invalidAccess) s

/-- VIC_INTSELECT_RD (R97). -/
def execVicIntSelectRd (s : State) : StepResult :=
  vicQuery (fun v => .access (.okRead v.select)) s

/-- VIC_INTSELECT_WR (R98): replaces the whole mask. -/
def execVicIntSelectWr (w : Word) (s : State) : StepResult :=
  vicUpdate (fun v => { v with select := w }) (.access .okWrite) s

/-- VIC_INTENABLE_RD (R99). -/
def execVicIntEnableRd (s : State) : StepResult :=
  vicQuery (fun v => .access (.okRead v.enable)) s

/-- VIC_INTENABLE_WR (R100, D21): replaces the whole mask; a zero bit disables its line. -/
def execVicIntEnableWr (w : Word) (s : State) : StepResult :=
  vicUpdate (fun v => { v with enable := w }) (.access .okWrite) s

/-- VIC_INTENCLEAR_RD (R101): write-only. -/
def execVicIntEnClearRd (s : State) : StepResult :=
  vicQuery (fun _ => .access .invalidAccess) s

/-- VIC_INTENCLEAR_WR (R102): AND with the complement. -/
def execVicIntEnClearWr (w : Word) (s : State) : StepResult :=
  vicUpdate (fun v => { v with enable := v.enable &&& ~~~w }) (.access .okWrite) s

/-- VIC_SOFTINT_RD (R103): software-asserted lines only. -/
def execVicSoftIntRd (s : State) : StepResult :=
  vicQuery (fun v => .access (.okRead v.sw)) s

/-- VIC_SOFTINT_WR (R104): ORs the word into the software lines. -/
def execVicSoftIntWr (w : Word) (s : State) : StepResult :=
  vicUpdate (fun v => { v with sw := v.sw ||| w }) (.access .okWrite) s

/-- VIC_SOFTINTCLEAR_RD (R105): write-only. -/
def execVicSoftIntClearRd (s : State) : StepResult :=
  vicQuery (fun _ => .access .invalidAccess) s

/-- VIC_SOFTINTCLEAR_WR (R106): AND with the complement; the hardware lines stay. -/
def execVicSoftIntClearWr (w : Word) (s : State) : StepResult :=
  vicUpdate (fun v => { v with sw := v.sw &&& ~~~w }) (.access .okWrite) s

end Sys2Proof.Machine
end

