-- ==== Sys2Proof/Machine/VicPort.lean ====
section
/-! DEFINITION. The Vic's hardware-source port and its output lines (spec/41_vic.md R127 to R130). -/

namespace Sys2Proof.Machine

open Sys2Proof

/-- VIC_ASSERT (R127): sets the source's bit in the hardware lines.  A source line of 32 or more is
refused at the interface (R67). -/
def execVicAssert (src : Nat) (s : State) : StepResult :=
  if src < 32 then vicUpdate (fun v => { v with hw := v.hw ||| lineBit src }) .portDone s
  else .refused .sourceOutOfRange

/-- VIC_CLEAR (R128): clears the source's bit in the hardware lines; the software lines stay. -/
def execVicClear (src : Nat) (s : State) : StepResult :=
  if src < 32 then vicUpdate (fun v => { v with hw := v.hw &&& ~~~lineBit src }) .portDone s
  else .refused .sourceOutOfRange

/-- VIC_IRQ (R129): the level of the IRQ output line. -/
def execVicIrq (s : State) : StepResult :=
  vicQuery (fun v => .level (irqLine v)) s

/-- VIC_FIQ (R130): the level of the FIQ output line. -/
def execVicFiq (s : State) : StepResult :=
  vicQuery (fun v => .level (fiqLine v)) s

end Sys2Proof.Machine
end

