-- ==== Sys2Proof/Machine/VicVectors.lean ====
section
/-! DEFINITION. The Vic's Protection stub, the vector address registers and the vector table
(spec/41_vic.md R107 to R117). -/

namespace Sys2Proof.Machine

open Sys2Proof

/-- VIC_PROTECTION_RD (R107): a stub that always reads 0. -/
def execVicProtectionRd (s : State) : StepResult :=
  vicQuery (fun _ => .access (.stubRead 0)) s

/-- VIC_PROTECTION_WR (R108): a stub that does nothing. -/
def execVicProtectionWr (_w : Word) (s : State) : StepResult :=
  vicQuery (fun _ => .access .stubWrite) s

/-- VIC_VECTADDR_RD (R110): the resolved ISR address; reading it marks nothing in service. -/
def execVicVectAddrRd (s : State) : StepResult :=
  vicQuery (fun v => .access (.okRead (isrAddress v))) s

/-- VIC_VECTADDR_WR (R111): succeeds and does nothing. -/
def execVicVectAddrWr (_w : Word) (s : State) : StepResult :=
  vicQuery (fun _ => .access .okWrite) s

/-- VIC_DEFVECTADDR_RD (R112). -/
def execVicDefVectAddrRd (s : State) : StepResult :=
  vicQuery (fun v => .access (.okRead v.defvect)) s

/-- VIC_DEFVECTADDR_WR (R113): any word, with no alignment check. -/
def execVicDefVectAddrWr (w : Word) (s : State) : StepResult :=
  vicUpdate (fun v => { v with defvect := w }) (.access .okWrite) s

/-- VIC_VECTADDRn_RD (R114): the ISR address of slot `i`. -/
def execVicVectAddrSlotRd (i : Nat) (s : State) : StepResult :=
  if h : i < 16 then vicQuery (fun v => .access (.okRead (slotAt v i h).addr)) s
  else .refused .slotOutOfRange

/-- VIC_VECTADDRn_WR (R115): sets the address; the enable flag and the source stay. -/
def execVicVectAddrSlotWr (i : Nat) (w : Word) (s : State) : StepResult :=
  if h : i < 16 then
    vicUpdate (fun v => putSlot v i h { slotAt v i h with addr := w }) (.access .okWrite) s
  else .refused .slotOutOfRange

/-- VIC_VECTCNTLn_RD (R116): the enable flag at bit 5, the source line in bits 4:0. -/
def execVicVectCntlSlotRd (i : Nat) (s : State) : StepResult :=
  if h : i < 16 then vicQuery (fun v => .access (.okRead (vectCntlWord (slotAt v i h)))) s
  else .refused .slotOutOfRange

/-- VIC_VECTCNTLn_WR (R117): sets the enable flag and the source; the address stays. -/
def execVicVectCntlSlotWr (i : Nat) (w : Word) (s : State) : StepResult :=
  if h : i < 16 then
    vicUpdate (fun v => putSlot v i h { slotAt v i h with en := slotEnable w, src := slotSource w })
      (.access .okWrite) s
  else .refused .slotOutOfRange

end Sys2Proof.Machine
end

