-- ==== Sys2Proof/Machine/Dispatch.lean ====
section
/-! DEFINITION. The meaning of each operation of the opcode table, one arm per constructor. -/

namespace Sys2Proof.Machine

open Sys2Proof

def exec (i : Instr) (s : State) : Host.Outcome State Fault Refusal :=
  match i with
  | .tmrLoadRd => Sys2Proof.Machine.execTmrLoadRd s
  | .tmrLoadWr v => Sys2Proof.Machine.execTmrLoadWr v s
  | .tmrValueRd => Sys2Proof.Machine.execTmrValueRd s
  | .tmrValueWr v => Sys2Proof.Machine.execTmrValueWr v s
  | .tmrCtrlRd => Sys2Proof.Machine.execTmrCtrlRd s
  | .tmrCtrlWr v => Sys2Proof.Machine.execTmrCtrlWr v s
  | .tmrClearRd => Sys2Proof.Machine.execTmrClearRd s
  | .tmrClearWr v => Sys2Proof.Machine.execTmrClearWr v s
  | .vicIrqStatusRd => Sys2Proof.Machine.execVicIrqStatusRd s
  | .vicIrqStatusWr v => Sys2Proof.Machine.execVicIrqStatusWr v s
  | .vicFiqStatusRd => Sys2Proof.Machine.execVicFiqStatusRd s
  | .vicFiqStatusWr v => Sys2Proof.Machine.execVicFiqStatusWr v s
  | .vicRawIntrRd => Sys2Proof.Machine.execVicRawIntrRd s
  | .vicRawIntrWr v => Sys2Proof.Machine.execVicRawIntrWr v s
  | .vicIntSelectRd => Sys2Proof.Machine.execVicIntSelectRd s
  | .vicIntSelectWr v => Sys2Proof.Machine.execVicIntSelectWr v s
  | .vicIntEnableRd => Sys2Proof.Machine.execVicIntEnableRd s
  | .vicIntEnableWr v => Sys2Proof.Machine.execVicIntEnableWr v s
  | .vicIntEnClearRd => Sys2Proof.Machine.execVicIntEnClearRd s
  | .vicIntEnClearWr v => Sys2Proof.Machine.execVicIntEnClearWr v s
  | .vicSoftIntRd => Sys2Proof.Machine.execVicSoftIntRd s
  | .vicSoftIntWr v => Sys2Proof.Machine.execVicSoftIntWr v s
  | .vicSoftIntClearRd => Sys2Proof.Machine.execVicSoftIntClearRd s
  | .vicSoftIntClearWr v => Sys2Proof.Machine.execVicSoftIntClearWr v s
  | .vicProtectionRd => Sys2Proof.Machine.execVicProtectionRd s
  | .vicProtectionWr v => Sys2Proof.Machine.execVicProtectionWr v s
  | .vicVectAddrRd => Sys2Proof.Machine.execVicVectAddrRd s
  | .vicVectAddrWr v => Sys2Proof.Machine.execVicVectAddrWr v s
  | .vicDefVectAddrRd => Sys2Proof.Machine.execVicDefVectAddrRd s
  | .vicDefVectAddrWr v => Sys2Proof.Machine.execVicDefVectAddrWr v s
  | .vicVectAddrSlotRd slot => Sys2Proof.Machine.execVicVectAddrSlotRd slot s
  | .vicVectAddrSlotWr slot v => Sys2Proof.Machine.execVicVectAddrSlotWr slot v s
  | .vicVectCntlSlotRd slot => Sys2Proof.Machine.execVicVectCntlSlotRd slot s
  | .vicVectCntlSlotWr slot v => Sys2Proof.Machine.execVicVectCntlSlotWr slot v s
  | .vicHwId0Rd => Sys2Proof.Machine.execVicHwId0Rd s
  | .vicHwId1Rd => Sys2Proof.Machine.execVicHwId1Rd s
  | .vicHwId2Rd => Sys2Proof.Machine.execVicHwId2Rd s
  | .vicHwId3Rd => Sys2Proof.Machine.execVicHwId3Rd s
  | .vicHwId0Wr v => Sys2Proof.Machine.execVicHwId0Wr v s
  | .vicHwId1Wr v => Sys2Proof.Machine.execVicHwId1Wr v s
  | .vicHwId2Wr v => Sys2Proof.Machine.execVicHwId2Wr v s
  | .vicHwId3Wr v => Sys2Proof.Machine.execVicHwId3Wr v s
  | .vicAssert src => Sys2Proof.Machine.execVicAssert src s
  | .vicClear src => Sys2Proof.Machine.execVicClear src s
  | .vicIrq => Sys2Proof.Machine.execVicIrq s
  | .vicFiq => Sys2Proof.Machine.execVicFiq s

end Sys2Proof.Machine
end

