-- ==== Sys2Proof/Machine/Step.lean ====
section
/-! DEFINITION. One step: the block takes the oldest operation an agent has issued and runs it to
completion (spec/00_scope.md R11, spec/20_memory.md R55, R58).  The block has no step of its own
(R14, R18). -/

namespace Sys2Proof.Machine

open Sys2Proof

/-- One step of the machine. -/
def step (s : State) : Host.Outcome State Fault Refusal :=
  match fetchOperation s with
  | none => .refused .noOperation
  | some (.instr i, t) => exec i t
  | some (.unmapped .timer, t) => execTmrUnmapped t
  | some (.unmapped .vic, t) => execVicUnmapped t
  | some (.name n, t) => execNameQuery n t
  | some (.rejected why, _) => .refused (.badOperation why)

/-- `s` with the operation of `nbits` bits `w` issued so that it is the very next one to run; what was
waiting stays behind it (assumptions 3 and 11). -/
def State.withFetchWord (s : State) (nbits w : Nat) : State :=
  { s with pending := fetchRequest s nbits w :: s.pending }

end Sys2Proof.Machine
end

