-- ==== Sys2Proof/Safety.lean ====
section
/-! DEFINITION. What a sound state is, and what an agent must do (spec/10_state.md R19, R22,
spec/70_reset_and_hazards.md R161, R164, spec/60_exceptions.md R137). -/

namespace Sys2Proof.Machine

open Sys2Proof

/-- The ranges of a Timer's fields (R19, R22, R164): count and load value within the wrap mask, the
fraction below one tick. -/
def Timer.wf (t : Timer) : Bool :=
  decide (t.value ≤ wrapMask t.bits)
    && (match t.load with
        | none => true
        | some n => decide (n ≤ wrapMask t.bits))
    && decide (t.frac < microticksPerTick)

/-- Every Timer of a state that is not halted keeps its ranges.  What a halted run left is not
specified (R137), so nothing is asked of it. -/
def State.wf (s : State) : Bool := s.halted || s.timers.all Timer.wf

/-- A state whose Timers keep the ranges of R19, unless the run has ended. -/
abbrev State.Sound (s : State) : Prop := s.wf = true

/-- A run is going well while no access has been fatal (R137). -/
abbrev State.Running (s : State) : Prop := s.halted = false

/-- The draws of a platform are legal reset values: `timer_reset_value ∈ [0, mask]` (R153, D15). -/
def Platform.wf (p : Platform) : Bool :=
  p.timers.all (fun t => decide (t.resetValue ≤ wrapMask t.bits))

/-- The device an operation drives, if it is one the block runs (R66, R67, R68). -/
def Decoded.device : Decoded → Option Device
  | .instr i => some i.device
  | .unmapped dev => some dev
  | .name _ => none
  | .rejected _ => none

/-- The duties R161 lays on the agents, for one request in state `s`: it addresses an instance there
is, its clock reading is not before the Timer's last one, and it asks for an operation of the block
(a 32-bit access, a source line below 32, no reserved key). -/
def dutiesMet (s : State) (r : Request) : Bool :=
  match r.op.decode with
  | .rejected _ => false
  | .name _ => true
  | .unmapped .vic => decide (r.inst < s.vics.length)
  | .unmapped .timer =>
    match s.timers[r.inst]? with
    | none => false
    | some t => decide (t.last ≤ r.now)
  | .instr i =>
    match i.device with
    | .vic => decide (r.inst < s.vics.length)
    | .timer =>
      match s.timers[r.inst]? with
      | none => false
      | some t => decide (t.last ≤ r.now)

end Sys2Proof.Machine
end

