-- ==== Sys2Proof/Certificates/Slice0/Obligations.lean ====
section
/-! DEFINITION. The statements for the provers.  Each docstring names the rule of spec/ it
formalises.  A conclusion `exec i s = .next …` gives the whole next state, so it is the operation's
frame as well: every field not written in it is unchanged. -/

namespace Sys2Proof.Certificates

open Sys2Proof Sys2Proof.Machine

/-! ### Vocabulary of the statements -/

/-- A Timer access reaches its register's rule (R77): the run is not halted, the addressed instance
is `t`, the clock did not go back, and the lazy update of `t` gives `u` and is not fatal. -/
def TimerReady (s : State) (t u : Timer) : Prop :=
  s.halted = false ∧ s.timers[s.inst]? = some t ∧ t.last ≤ s.now ∧ lazyUpdate s.now t = .ok u

/-- A Vic operation reaches its rule (R90): the run is not halted and the addressed instance is `v`.
-/
def VicReady (s : State) (v : Vic) : Prop :=
  s.halted = false ∧ s.vics[s.inst]? = some v

/-- `s` with the addressed Timer replaced and an outcome reported; nothing else changes. -/
def afterTimer (s : State) (w : Timer) (o : AccessOutcome) : State :=
  { s with timers := s.timers.set s.inst w, response := .access o }

/-- `s` with the addressed Vic replaced and a report made; nothing else changes. -/
def afterVic (s : State) (v : Vic) (r : Response) : State :=
  { s with vics := s.vics.set s.inst v, response := r }

/-- `s` with a report made; nothing else changes. -/
def answered (s : State) (r : Response) : State := { s with response := r }

/-- `s` after a fatal outcome in an access to its Timer `t`: halted, the kind reported, and free
values in the accessed instance (the model's form of R137, assumption 4). -/
def haltedBy (s : State) (t : Timer) (kind : FatalKind) : State :=
  { s with
    timers := s.timers.set s.inst (unspecifiedTimer t.bits s.draws)
    halted := true
    response := .access (.fatal kind)
    draws := s.draws + 1 }

/-- Whole ticks an enabled Timer counts down by time `now` (R78), written with the numbers of R6 and
R25. -/
def ticksAt (now : Nat) (t : Timer) : Nat :=
  ((now - t.last) * (if t.clksel = .k2 then 2 else 508) + t.frac) / 1000000

/-- The microtick remainder an enabled Timer keeps at time `now` (R78). -/
def remainderAt (now : Nat) (t : Timer) : Nat :=
  ((now - t.last) * (if t.clksel = .k2 then 2 else 508) + t.frac) % 1000000

/-- The number of values of a counter of this width, 2^16 or 2^32 (R6). -/
def counterSize (w : Width) : Nat := if w = .w16 then 65536 else 4294967296

/-- One tick of a periodic Timer with load value `l` (R163): `x − 1`, and from 0 to `l − 1`. -/
def oneTick (l x : Nat) : Nat := if x = 0 then l - 1 else x - 1

/-- The Timer operations that write neither Load nor Control (R163). -/
def TimerSample (i : Instr) : Prop :=
  i = .tmrLoadRd ∨ i = .tmrValueRd ∨ (∃ v, i = .tmrValueWr v) ∨ i = .tmrCtrlRd ∨ i = .tmrClearRd
    ∨ (∃ v, i = .tmrClearWr v)

/-- The offsets of R38. -/
def TimerOffset (off : Nat) : Prop := off = 0x00 ∨ off = 0x04 ∨ off = 0x08 ∨ off = 0x0C

/-- The offsets of R41. -/
def VicOffset (off : Nat) : Prop :=
  off ∈ [0x000, 0x004, 0x008, 0x00C, 0x010, 0x014, 0x018, 0x01C, 0x020, 0x030, 0x034]
    ∨ (∃ i, i < 16 ∧ off = 0x100 + 4 * i) ∨ (∃ i, i < 16 ∧ off = 0x200 + 4 * i)
    ∨ off ∈ [0xFE0, 0xFE4, 0xFE8, 0xFEC]

/-- The reserved key space of R73: class 11; bit 13 in classes 00 and 01; bits 11:5 in class 10;
bits 4:0 of an `irq` or `fiq` key. -/
def ReservedKey (k : Key) : Prop :=
  (k.getLsbD 15 = true ∧ k.getLsbD 14 = true)
    ∨ (k.getLsbD 15 = false ∧ k.getLsbD 13 = true)
    ∨ (k.getLsbD 15 = true ∧ k.getLsbD 14 = false ∧ k &&& 0x0FE0#16 ≠ 0)
    ∨ (k.getLsbD 15 = true ∧ k.getLsbD 14 = false ∧ k.getLsbD 13 = true ∧ k &&& 0x001F#16 ≠ 0)

/-- The class bits of a bus access (R66). -/
def classOf (dev : Device) : Nat := if dev = .timer then 0 else 1

/-- The direction bit of a bus access (R66). -/
def directionOf (dir : Dir) : Nat := if dir = .read then 0 else 1

/-- Two Timers a program cannot tell apart (R29): equal, or both disabled and different only in the
fraction and the time of the last update. -/
def SameButUnobservable (t t' : Timer) : Prop :=
  t' = t ∨ (t.enabled = false ∧ t' = { t with frac := t'.frac, last := t'.last })

end Sys2Proof.Certificates

open Sys2Proof Sys2Proof.Machine Sys2Proof.Certificates

/-! ### Encoding -/

/-- Keys written out from the encoding (30_encoding.md R65 to R72, the spec's decision D2) decode to
their operations. -/
def Obligations.SampleKeysDecode : Prop :=
  decode ⟨0b00_0_0_000000000100#16, 0⟩ = .instr .tmrValueRd
    ∧ decode ⟨0b00_0_1_000000001000#16, 0xC8⟩ = .instr (.tmrCtrlWr 0xC8)
    ∧ decode ⟨0b01_0_1_000000010000#16, 0xA8⟩ = .instr (.vicIntEnableWr 0xA8)
    ∧ decode ⟨0b01_0_0_000000110000#16, 0⟩ = .instr .vicVectAddrRd
    ∧ decode ⟨0b01_0_1_001000_1111_00#16, 0xFF⟩ = .instr (.vicVectCntlSlotWr 15 0xFF)
    ∧ decode ⟨0b01_0_0_111111101000#16, 0⟩ = .instr .vicHwId2Rd
    ∧ decode ⟨0b10_00_0000000_00101#16, 0⟩ = .instr (.vicAssert 5)
    ∧ decode ⟨0b10_11_0000000_00000#16, 0⟩ = .instr .vicFiq

/-- Decoding the words of a well-formed operation gives the operation back, with every operand
(30_encoding.md R66, R67, R69; the words are the spec's decision D2 and assumption 7). -/
def Obligations.DecodeOfEncodeIsIdentity : Prop :=
  ∀ i : Instr, i.WellFormed → decode (encode i) = .instr i

/-- 30_encoding.md R66, R67, R69 (decision D2, assumption 7): an operation the decoder reads is well
formed, has exactly the key it was read from, and carries the data word of a Write (bit 12 of a
class 00 or 01 key) and none otherwise. -/
def Obligations.EncodeOfDecodeIsTheKey : Prop :=
  ∀ (w : OpWords) (i : Instr), decode w = .instr i →
    i.WellFormed ∧ (encode i).key = w.key
      ∧ (encode i).data = if w.key.getLsbD 15 = false ∧ w.key.getLsbD 12 = true then w.data else 0

/-- 30_encoding.md R68 (the spec's decision D2; the refusal's name is assumption 6): no two rows
overlap; a key decodes by the row that matches it; a key that matches no row is handled by its
class: an unmapped bus access whose outcome is `UnexpectedAddress`, or refused. -/
def Obligations.KeysDecodeByTheTable : Prop :=
  opcodeTable.Pairwise (fun a b => ∀ k : Key, ¬ (k &&& a.mask = a.bits ∧ k &&& b.mask = b.bits))
    ∧ (∀ (w : OpWords) (r : OpcodeRow), r ∈ opcodeTable → w.key &&& r.mask = r.bits →
        decode w = .instr (r.build w.key w.data))
    ∧ (∀ w : OpWords, (∀ r ∈ opcodeTable, w.key &&& r.mask ≠ r.bits) →
        (w.key.getLsbD 15 = true → w.key.getLsbD 14 = true →
          decode w = .rejected .reservedClass)
        ∧ (w.key.getLsbD 15 = true → w.key.getLsbD 14 = false →
          decode w = .rejected .portBitsSet)
        ∧ (w.key.getLsbD 15 = false → w.key.getLsbD 13 = true →
          decode w = .rejected .zBitSet)
        ∧ (w.key.getLsbD 15 = false → w.key.getLsbD 13 = false → w.key.getLsbD 14 = false →
          decode w = .unmapped .timer)
        ∧ (w.key.getLsbD 15 = false → w.key.getLsbD 13 = false → w.key.getLsbD 14 = true →
          decode w = .unmapped .vic))
    ∧ (∀ (s t : State) (r : Request) (rest : List Request) (dev : Device), s.pending = r :: rest →
        r.op.decode = .unmapped dev → step s = .next t → t.halted = false →
        t.response = .access .unexpectedAddress)
    ∧ (∀ (s : State) (r : Request) (rest : List Request) (why : Reject), s.pending = r :: rest →
        r.op.decode = .rejected why → step s = .refused (.badOperation why))

/-- 30_encoding.md R73 (the spec's decision D2; the refusal's name is assumption 6): a reserved key
is refused; every other key is an operation or a bus access to an unmapped offset. -/
def Obligations.ReservedKeysAreRefused : Prop :=
  (∀ (s : State) (inst now : Nat) (k : Key) (d : Word) (rest : List Request),
      s.pending = ⟨inst, now, .key k d⟩ :: rest → ReservedKey k →
      ∃ why, step s = .refused (.badOperation why))
    ∧ (∀ (k : Key) (d : Word), ¬ ReservedKey k →
        (∃ i, decode ⟨k, d⟩ = .instr i)
          ∨ (k.getLsbD 15 = false ∧ ∃ dev, decode ⟨k, d⟩ = .unmapped dev))

/-- 30_encoding.md R66 (the spec's decision D2): a bus access has the key `cls << 14 | dir << 12 |
off`, its data word is passed whole, and an offset above 0xFFF has no key and is unmapped. -/
def Obligations.BusAccessesHaveTheirKeys : Prop :=
  ∀ (dev : Device) (dir : Dir) (off : Nat) (v : Word),
    (off ≤ 0xFFF →
      (Operation.bus dev dir .word off v).decode
        = decode ⟨BitVec.ofNat 16 (classOf dev * 16384 + directionOf dir * 4096 + off), v⟩)
      ∧ (0xFFF < off → (Operation.bus dev dir .word off v).decode = .unmapped dev)

/-- 30_encoding.md R67 (the spec's decisions D2 and D23): `assert(s)`, `clear(s)`, `irq()` and
`fiq()` have the keys 0x8000 + s, 0x9000 + s, 0xA000 and 0xB000 and are the operations of those
keys; a source line of 32 or more is refused. -/
def Obligations.PortCallsHaveTheirKeys : Prop :=
  (∀ s : Nat, s < 32 →
      ((Operation.assertLine s).decode = decode ⟨BitVec.ofNat 16 (0x8000 + s), 0⟩
        ∧ (Operation.assertLine s).decode = .instr (.vicAssert s))
      ∧ ((Operation.clearLine s).decode = decode ⟨BitVec.ofNat 16 (0x9000 + s), 0⟩
        ∧ (Operation.clearLine s).decode = .instr (.vicClear s)))
    ∧ (Operation.irqLine.decode = decode ⟨0xA000#16, 0⟩ ∧ Operation.irqLine.decode = .instr .vicIrq)
    ∧ (Operation.fiqLine.decode = decode ⟨0xB000#16, 0⟩ ∧ Operation.fiqLine.decode = .instr .vicFiq)
    ∧ (∀ (st : State) (inst now s : Nat) (rest : List Request), 32 ≤ s →
        (st.pending = ⟨inst, now, .assertLine s⟩ :: rest
          ∨ st.pending = ⟨inst, now, .clearLine s⟩ :: rest) →
        step st = .refused (.badOperation .sourceOutOfRange))

/-- 20_memory.md R48 (the spec's decision D3; the refusal's name is assumption 6): a byte or
halfword access is refused. -/
def Obligations.SubWordAccessesAreRefused : Prop :=
  ∀ (s : State) (inst now : Nat) (dev : Device) (dir : Dir) (size : AccessSize) (off : Nat) (v : Word)
    (rest : List Request), s.pending = ⟨inst, now, .bus dev dir size off v⟩ :: rest → size ≠ .word →
    step s = .refused (.badOperation .subWordAccess)

/-- R11, R18, R58, in the model's own queue (assumptions 3, 6 and 10): a step takes the oldest
waiting operation off the queue, and runs it to completion with the instance and the clock reading
of its request; with no operation waiting there is no step. -/
def Obligations.StepRunsTheDecodedOperation : Prop :=
  (∀ (s : State) (r : Request) (rest : List Request) (i : Instr), s.pending = r :: rest →
      r.op.decode = .instr i →
      step s = exec i { s with inst := r.inst, now := r.now, pending := rest })
    ∧ (∀ s : State, s.pending = [] → step s = .refused .noOperation)

/-! ### The Timer -/

/-- R78: the lazy update. A disabled Timer only refreshes its timestamp; an enabled one converts the
elapsed nanoseconds to ticks, keeps the remainder, and counts down by its mode. -/
def Obligations.LazyUpdateFollowsItsFormula : Prop :=
  ∀ (now : Nat) (t : Timer), t.last ≤ now →
    (t.enabled = false → lazyUpdate now t = .ok { t with last := now })
      ∧ (t.enabled = true → t.mode = .freeRunning →
          lazyUpdate now t = .ok { t with
            value := (((t.value : Int) - (ticksAt now t : Int)) % (counterSize t.bits : Int)).toNat
            frac := remainderAt now t
            last := now })
      ∧ (t.enabled = true → t.mode = .periodic →
          (∀ x, periodicStep t.load t.value (ticksAt now t) = .ok x →
            lazyUpdate now t = .ok { t with value := x, frac := remainderAt now t, last := now })
          ∧ (∀ kind, periodicStep t.load t.value (ticksAt now t) = .error kind →
            lazyUpdate now t = .error kind))

/-- The periodic step, branch by branch (40_timer.md R79; the zero-load branch is the spec's
decision D12, the multi-wrap branch its decision D11, assumption 8). -/
def Obligations.PeriodicStepFollowsItsFormula : Prop :=
  ∀ (load : Option Nat) (value ticks : Nat),
    (ticks ≤ value → periodicStep load value ticks = .ok (value - ticks))
      ∧ (value < ticks → load = none → periodicStep load value ticks = .error .reloadUnset)
      ∧ (value < ticks → load = some 0 → periodicStep load value ticks = .error .reloadZeroLoad)
      ∧ (∀ l e : Nat, 0 < l → load = some l → ticks = value + e → 0 < e → e ≤ l →
          periodicStep load value ticks = .ok (l - e))
      ∧ (∀ l e : Nat, 0 < l → load = some l → ticks = value + e → l < e →
          periodicStep load value ticks = .ok (l - 1 - (e - 1) % l))

/-- The sampling-independence law (70_reset_and_hazards.md R163, which the spec derives, and rests
on its decision D11, assumption 8). A lazy update to `t1` followed by one to `t2` is a single lazy
update to `t2`, fatal outcome included; the microtick quotients add, the free-running subtraction
composes, and the periodic step is the iteration of the one-tick step. -/
def Obligations.LazyUpdateIsSamplingIndependent : Prop :=
  (∀ (t : Timer) (t1 t2 : Nat), t.last ≤ t1 → t1 ≤ t2 →
      (lazyUpdate t1 t).bind (lazyUpdate t2) = lazyUpdate t2 t)
    ∧ (∀ a b k f : Nat,
        (a * k + f) / 1000000 + (b * k + (a * k + f) % 1000000) / 1000000
          = ((a + b) * k + f) / 1000000)
    ∧ (∀ (w : Width) (x a b : Nat),
        freeRunningStep w (freeRunningStep w x a) b = freeRunningStep w x (a + b))
    ∧ (∀ l x n : Nat, 0 < l → periodicStep (some l) x n = .ok ((oneTick l)^[n] x))

/-- 20_memory.md R52 and 70_reset_and_hazards.md R163, which the spec derives (R163 on its decision
D11, assumption 8): how often software samples a Timer changes nothing later. An operation of the
table that writes neither Load nor Control, made first, leaves the answer and the state after any
later operation on the same Timer as they would have been without it. (Accesses to unmapped offsets,
which are no operation of the table, are not among the samples.) -/
def Obligations.SamplingDoesNotChangeLaterAccesses : Prop :=
  ∀ (i j : Instr) (s s1 : State) (b : Nat), TimerSample i → j.device = .timer →
    exec i s = .next s1 → s1.halted = false → s.now ≤ b →
    exec j { s1 with now := b } = exec j { s with now := b }

/-- 70_reset_and_hazards.md R165, which the spec derives (that bit 7 = 1 enables is its decision D9,
assumption 8): a Control write that enables zeroes the fraction and takes its own time as the start,
so the count over the next `d` nanoseconds is that of `d × clock_khz div 10^6` ticks, whatever
fraction and time the Timer held before. -/
def Obligations.EnablingClearsTheFraction : Prop :=
  ∀ (s : State) (t : Timer) (v : Word), s.halted = false → s.timers[s.inst]? = some t →
    t.last ≤ s.now → t.enabled = false → v.getLsbD 7 = true →
    ∃ w : Timer, exec (.tmrCtrlWr v) s = .next (afterTimer s w .okWrite)
      ∧ w.enabled = true ∧ w.frac = 0 ∧ w.last = s.now ∧ w.value = t.value ∧ w.load = t.load
      ∧ ∀ d : Nat,
        (w.mode = .freeRunning → ∃ u, lazyUpdate (s.now + d) w = .ok u ∧
          u.value = (((t.value : Int) - ((d * clockKhz w.clksel / 1000000 : Nat) : Int))
            % (counterSize t.bits : Int)).toNat)
        ∧ (w.mode = .periodic → ∀ x,
          periodicStep t.load t.value (d * clockKhz w.clksel / 1000000) = .ok x →
          ∃ u, lazyUpdate (s.now + d) w = .ok u ∧ u.value = x)

/-- 70_reset_and_hazards.md R162, which the spec derives: over `d` nanoseconds enabled, a
free-running Timer counts down by `floor(d × clock_khz / 10^6)` ticks or one more, modulo the
counter's size; one tick is 500,000 ns at 2 kHz. -/
def Obligations.DecrementIsWithinOneTick : Prop :=
  (∀ (t u : Timer) (d : Nat), t.enabled = true → t.mode = .freeRunning → t.frac < 1000000 →
      lazyUpdate (t.last + d) t = .ok u →
      ∃ n, d * clockKhz t.clksel / 1000000 ≤ n ∧ n ≤ d * clockKhz t.clksel / 1000000 + 1
        ∧ n = (d * clockKhz t.clksel + t.frac) / 1000000
        ∧ u.value < counterSize t.bits
        ∧ (u.value + n) % counterSize t.bits = t.value % counterSize t.bits)
    ∧ (∀ (t u : Timer) (n : Nat), t.enabled = true → t.mode = .freeRunning → t.clksel = .k2 →
        t.frac < 1000000 → lazyUpdate (t.last + n * 500000) t = .ok u →
        (u.value + n) % counterSize t.bits = t.value % counterSize t.bits ∧ u.frac = t.frac)

/-- TMR_LOAD_RD (40_timer.md R80): the load value, or a fatal end, whose form is the model's
(assumption 4). -/
def Obligations.LoadReadReturnsTheLoadOrIsFatal : Prop :=
  (∀ d : Word, decode ⟨0x0000#16, d⟩ = .instr .tmrLoadRd)
    ∧ ∀ (s : State) (t u : Timer), TimerReady s t u →
      (∀ n, u.load = some n →
        exec .tmrLoadRd s = .next (afterTimer s u (.okRead (BitVec.ofNat 32 n))))
      ∧ (u.load = none → exec .tmrLoadRd s = .next (haltedBy s t .loadReadUnset))

/-- TMR_LOAD_WR (40_timer.md R81): the masked word becomes load value and count; while enabled a
fatal end, whose form is the model's (assumption 4). -/
def Obligations.LoadWriteSetsLoadAndValue : Prop :=
  (∀ v : Word, decode ⟨0x1000#16, v⟩ = .instr (.tmrLoadWr v))
    ∧ ∀ (s : State) (t u : Timer) (v : Word), TimerReady s t u →
      (u.enabled = false →
        exec (.tmrLoadWr v) s = .next (afterTimer s { u with
          load := some (v.toNat % counterSize u.bits)
          value := v.toNat % counterSize u.bits } .okWrite))
      ∧ (u.enabled = true → exec (.tmrLoadWr v) s = .next (haltedBy s t .loadWriteEnabled))

/-- R82: TMR_VALUE_RD: the count as the lazy update left it. -/
def Obligations.ValueReadReturnsTheCount : Prop :=
  (∀ d : Word, decode ⟨0x0004#16, d⟩ = .instr .tmrValueRd)
    ∧ ∀ (s : State) (t u : Timer), TimerReady s t u →
      exec .tmrValueRd s = .next (afterTimer s u (.okRead (BitVec.ofNat 32 u.value)))

/-- TMR_VALUE_WR (40_timer.md R83, the spec's decision D18): Value is read-only and the word is
ignored. -/
def Obligations.ValueWriteIsInvalidAccess : Prop :=
  (∀ v : Word, decode ⟨0x1004#16, v⟩ = .instr (.tmrValueWr v))
    ∧ ∀ (s : State) (t u : Timer) (v : Word), TimerReady s t u →
      exec (.tmrValueWr v) s = .next (afterTimer s u .invalidAccess)

/-- TMR_CTRL_RD (40_timer.md R84, the spec's decisions D7, D8 and D10, assumption 8): CLKSEL at bit
3, MODE at bit 6, ENABLE at bit 7, every other bit 0. -/
def Obligations.ControlReadPacksTheFields : Prop :=
  (∀ d : Word, decode ⟨0x0008#16, d⟩ = .instr .tmrCtrlRd)
    ∧ ∀ (s : State) (t u : Timer), TimerReady s t u →
      ∃ c : Word, exec .tmrCtrlRd s = .next (afterTimer s u (.okRead c))
        ∧ (c.getLsbD 3 = true ↔ u.clksel = .k508)
        ∧ (c.getLsbD 6 = true ↔ u.mode = .periodic)
        ∧ c.getLsbD 7 = u.enabled
        ∧ ∀ n, n ≠ 3 → n ≠ 6 → n ≠ 7 → c.getLsbD n = false

/-- TMR_CTRL_WR (40_timer.md R85, the spec's decisions D7 to D10, D32, D33 and D35), on the Timer as
the lazy update under the old settings left it. -/
def Obligations.ControlWriteSetsTheFields : Prop :=
  (∀ v : Word, decode ⟨0x1008#16, v⟩ = .instr (.tmrCtrlWr v))
    ∧ ∀ (s : State) (t u : Timer) (v : Word), TimerReady s t u →
      ∃ w : Timer, exec (.tmrCtrlWr v) s = .next (afterTimer s w .okWrite)
        ∧ w.mode = (if v.getLsbD 6 then .periodic else .freeRunning)
        ∧ w.clksel = (if v.getLsbD 3 then .k508 else .k2)
        ∧ w.enabled = v.getLsbD 7
        ∧ (u.enabled = false → v.getLsbD 7 = true → w.frac = 0 ∧ w.load = u.load)
        ∧ (u.enabled = true → v.getLsbD 7 = false → w.frac = u.frac ∧ w.load = none)
        ∧ (u.enabled = v.getLsbD 7 → w.frac = u.frac ∧ w.load = u.load)
        ∧ w.value = u.value ∧ w.bits = u.bits ∧ w.last = u.last

/-- Both directions of Clear are unimplemented (40_timer.md R86, R87, the spec's decision D16). -/
def Obligations.ClearIsUnimplemented : Prop :=
  (∀ d : Word, decode ⟨0x000C#16, d⟩ = .instr .tmrClearRd)
    ∧ (∀ v : Word, decode ⟨0x100C#16, v⟩ = .instr (.tmrClearWr v))
    ∧ ∀ (s : State) (t u : Timer), TimerReady s t u →
      exec .tmrClearRd s = .next (afterTimer s u .unimplemented)
      ∧ ∀ v, exec (.tmrClearWr v) s = .next (afterTimer s u .unimplemented)

/-- 40_timer.md R88 and 60_exceptions.md R139, which the spec derives (misaligned offsets are its
decision D5, offsets of any size D6, the update before the outcome D20; assumption 8): a Timer
access to any offset but 0x00, 0x04, 0x08 and 0x0C, of any size of offset and in either direction,
runs the lazy update and reports `UnexpectedAddress`; a fatal lazy update takes its place, in the
model's form of a fatal end (assumption 4). -/
def Obligations.UnmappedTimerOffsetsAreUnexpected : Prop :=
  ∀ (s : State) (inst now off : Nat) (dir : Dir) (v : Word) (rest : List Request) (t : Timer),
    s.pending = ⟨inst, now, .bus .timer dir .word off v⟩ :: rest → ¬ TimerOffset off →
    s.halted = false → s.timers[inst]? = some t → t.last ≤ now →
    (∀ u, lazyUpdate now t = .ok u → step s = .next { s with
        timers := s.timers.set inst u, inst := inst, now := now, pending := rest,
        response := .access .unexpectedAddress })
      ∧ (∀ kind, lazyUpdate now t = .error kind →
          step s = .next (haltedBy { s with inst := inst, now := now, pending := rest } t kind))

/-- 20_memory.md R60 (the spec's decision D13; the refusal's name is assumption 6): a Timer access
whose clock reading is before the Timer's last one has no step. -/
def Obligations.NoTimerStepWhenTheClockGoesBack : Prop :=
  ∀ (i : Instr) (s : State) (t : Timer), i.device = .timer → s.halted = false →
    s.timers[s.inst]? = some t → s.now < t.last → exec i s = .refused .clockWentBack

/-- 60_exceptions.md R137 (the spec's decision D19; the fault's name is assumption 6): once the run
is halted no operation has a step: every well-formed operation stops on the mark, whatever else
holds, and no request steps. -/
def Obligations.NoStepOnceHalted : Prop :=
  (∀ (i : Instr) (s : State), i.WellFormed → s.halted = true → exec i s = .fault .halted)
    ∧ (∀ s t : State, s.halted = true → step s ≠ .next t)

/-- 60_exceptions.md R136 (`ReloadZeroLoad` is the spec's decision D12; the form of a fatal end is
assumption 4): the fatal kinds, and exactly when each is raised. -/
def Obligations.FatalOutcomesAreExactlyThese : Prop :=
  (∀ (i : Instr) (s : State) (t : Timer) (kind : FatalKind), i.device = .timer → s.halted = false →
      s.timers[s.inst]? = some t → t.last ≤ s.now →
      (exec i s = .next (haltedBy s t kind) ↔
        lazyUpdate s.now t = .error kind
          ∨ (i = .tmrLoadRd ∧ kind = .loadReadUnset ∧ ∃ u, lazyUpdate s.now t = .ok u ∧ u.load = none)
          ∨ ((∃ v, i = .tmrLoadWr v) ∧ kind = .loadWriteEnabled
              ∧ ∃ u, lazyUpdate s.now t = .ok u ∧ u.enabled = true)))
    ∧ (∀ (now : Nat) (t : Timer) (kind : FatalKind),
        lazyUpdate now t = .error kind ↔
          t.enabled = true ∧ t.mode = .periodic ∧ t.value < ticksAt now t
            ∧ ((t.load = none ∧ kind = .reloadUnset) ∨ (t.load = some 0 ∧ kind = .reloadZeroLoad)))
    ∧ (∀ (i : Instr) (s s' : State), i.device = .vic → exec i s = .next s' → s'.halted = false)

/-! ### The interrupt controller -/

/-- R91, R93, R95: IRQStatus, FIQStatus and RawIntr reads. -/
def Obligations.StatusReadsShowTheLines : Prop :=
  (∀ d : Word, decode ⟨0x4000#16, d⟩ = .instr .vicIrqStatusRd
      ∧ decode ⟨0x4004#16, d⟩ = .instr .vicFiqStatusRd
      ∧ decode ⟨0x4008#16, d⟩ = .instr .vicRawIntrRd)
    ∧ ∀ (s : State) (v : Vic), VicReady s v →
      exec .vicIrqStatusRd s
          = .next (answered s (.access (.okRead ((v.hw ||| v.sw) &&& v.enable &&& ~~~v.select))))
      ∧ exec .vicFiqStatusRd s
          = .next (answered s (.access (.okRead ((v.hw ||| v.sw) &&& v.enable &&& v.select))))
      ∧ exec .vicRawIntrRd s = .next (answered s (.access (.okRead (v.hw ||| v.sw))))

/-- R129, R130: the output lines: `irq()` is true iff some line is active, enabled and not selected
for FIQ, `fiq()` iff some line is active, enabled and selected. -/
def Obligations.OutputLinesFollowTheLines : Prop :=
  (∀ d : Word, decode ⟨0xA000#16, d⟩ = .instr .vicIrq ∧ decode ⟨0xB000#16, d⟩ = .instr .vicFiq)
    ∧ ∀ (s : State) (v : Vic), VicReady s v →
      (∃ b, exec .vicIrq s = .next (answered s (.level b))
        ∧ (b = true ↔ ∃ n, n < 32 ∧ (v.hw.getLsbD n || v.sw.getLsbD n) = true
            ∧ v.enable.getLsbD n = true ∧ v.select.getLsbD n = false))
      ∧ (∃ b, exec .vicFiq s = .next (answered s (.level b))
        ∧ (b = true ↔ ∃ n, n < 32 ∧ (v.hw.getLsbD n || v.sw.getLsbD n) = true
            ∧ v.enable.getLsbD n = true ∧ v.select.getLsbD n = true))

/-- R92, R94, R96, R101, R105, R122 to R125: an access to a register that exists only in the other
direction is `InvalidAccess` and changes nothing. -/
def Obligations.WrongDirectionIsInvalidAccess : Prop :=
  (∀ w : Word,
      [decode ⟨0x5000#16, w⟩, decode ⟨0x5004#16, w⟩, decode ⟨0x5008#16, w⟩, decode ⟨0x4014#16, w⟩,
        decode ⟨0x401C#16, w⟩, decode ⟨0x5FE0#16, w⟩, decode ⟨0x5FE4#16, w⟩, decode ⟨0x5FE8#16, w⟩,
        decode ⟨0x5FEC#16, w⟩]
      = [.instr (.vicIrqStatusWr w), .instr (.vicFiqStatusWr w), .instr (.vicRawIntrWr w),
        .instr .vicIntEnClearRd, .instr .vicSoftIntClearRd, .instr (.vicHwId0Wr w),
        .instr (.vicHwId1Wr w), .instr (.vicHwId2Wr w), .instr (.vicHwId3Wr w)])
    ∧ ∀ (s : State) (v : Vic), VicReady s v → ∀ (w : Word) (i : Instr),
      i ∈ [.vicIrqStatusWr w, .vicFiqStatusWr w, .vicRawIntrWr w, .vicIntEnClearRd,
        .vicSoftIntClearRd, .vicHwId0Wr w, .vicHwId1Wr w, .vicHwId2Wr w, .vicHwId3Wr w] →
      exec i s = .next (answered s (.access .invalidAccess))

/-- R97, R99, R103, R112: the reads that return one field. -/
def Obligations.FieldReadsReturnTheField : Prop :=
  (∀ d : Word, decode ⟨0x400C#16, d⟩ = .instr .vicIntSelectRd
      ∧ decode ⟨0x4010#16, d⟩ = .instr .vicIntEnableRd
      ∧ decode ⟨0x4018#16, d⟩ = .instr .vicSoftIntRd
      ∧ decode ⟨0x4034#16, d⟩ = .instr .vicDefVectAddrRd)
    ∧ ∀ (s : State) (v : Vic), VicReady s v →
      exec .vicIntSelectRd s = .next (answered s (.access (.okRead v.select)))
      ∧ exec .vicIntEnableRd s = .next (answered s (.access (.okRead v.enable)))
      ∧ exec .vicSoftIntRd s = .next (answered s (.access (.okRead v.sw)))
      ∧ exec .vicDefVectAddrRd s = .next (answered s (.access (.okRead v.defvect)))

/-- R98, R113: IntSelect and DefVectAddr writes replace the whole field. -/
def Obligations.FieldWritesReplaceTheField : Prop :=
  (∀ w : Word, decode ⟨0x500C#16, w⟩ = .instr (.vicIntSelectWr w)
      ∧ decode ⟨0x5034#16, w⟩ = .instr (.vicDefVectAddrWr w))
    ∧ ∀ (s : State) (v : Vic) (w : Word), VicReady s v →
      exec (.vicIntSelectWr w) s = .next (afterVic s { v with select := w } (.access .okWrite))
      ∧ exec (.vicDefVectAddrWr w) s = .next (afterVic s { v with defvect := w } (.access .okWrite))

/-- VIC_INTENABLE_WR (41_vic.md R100, the spec's decision D21, assumption 8): the write replaces the
whole mask, so a zero bit disables its line. -/
def Obligations.IntEnableWriteReplacesTheMask : Prop :=
  (∀ w : Word, decode ⟨0x5010#16, w⟩ = .instr (.vicIntEnableWr w))
    ∧ ∀ (s : State) (v : Vic) (w : Word), VicReady s v →
      ∃ e : Word, exec (.vicIntEnableWr w) s = .next (afterVic s { v with enable := e } (.access .okWrite))
        ∧ (∀ n, e.getLsbD n = w.getLsbD n)
        ∧ (w = 0 → irqLine { v with enable := e } = false ∧ fiqLine { v with enable := e } = false)

/-- R102, R104, R106: IntEnClear and SoftIntClear writes clear, and SoftInt writes set, exactly the
lines whose bit is 1 in the word. -/
def Obligations.SetAndClearWritesTouchTheirLines : Prop :=
  (∀ w : Word, decode ⟨0x5014#16, w⟩ = .instr (.vicIntEnClearWr w)
      ∧ decode ⟨0x5018#16, w⟩ = .instr (.vicSoftIntWr w)
      ∧ decode ⟨0x501C#16, w⟩ = .instr (.vicSoftIntClearWr w))
    ∧ ∀ (s : State) (v : Vic) (w : Word), VicReady s v →
      (∃ e : Word,
        exec (.vicIntEnClearWr w) s = .next (afterVic s { v with enable := e } (.access .okWrite))
        ∧ ∀ n, e.getLsbD n = (v.enable.getLsbD n && !w.getLsbD n))
      ∧ (∃ e : Word,
        exec (.vicSoftIntWr w) s = .next (afterVic s { v with sw := e } (.access .okWrite))
        ∧ ∀ n, e.getLsbD n = (v.sw.getLsbD n || w.getLsbD n))
      ∧ (∃ e : Word,
        exec (.vicSoftIntClearWr w) s = .next (afterVic s { v with sw := e } (.access .okWrite))
        ∧ ∀ n, e.getLsbD n = (v.sw.getLsbD n && !w.getLsbD n))

/-- Protection is a stub (41_vic.md R107, R108, the spec's decisions D17 and D27): it reads 0 and
ignores writes, and says so. -/
def Obligations.ProtectionIsAStub : Prop :=
  (∀ d : Word, decode ⟨0x4020#16, d⟩ = .instr .vicProtectionRd
      ∧ decode ⟨0x5020#16, d⟩ = .instr (.vicProtectionWr d))
    ∧ ∀ (s : State) (v : Vic), VicReady s v →
      exec .vicProtectionRd s = .next (answered s (.access (.stubRead 0)))
      ∧ ∀ w, exec (.vicProtectionWr w) s = .next (answered s (.access .stubWrite))

/-- R110, R111: a VectAddr read returns the resolved address with no side effect, and a VectAddr
write succeeds and does nothing. -/
def Obligations.VectAddrReadsResolveAndWritesDoNothing : Prop :=
  (∀ d : Word, decode ⟨0x4030#16, d⟩ = .instr .vicVectAddrRd
      ∧ decode ⟨0x5030#16, d⟩ = .instr (.vicVectAddrWr d))
    ∧ ∀ (s : State) (v : Vic), VicReady s v →
      exec .vicVectAddrRd s = .next (answered s (.access (.okRead (isrAddress v))))
      ∧ ∀ w, exec (.vicVectAddrWr w) s = .next (answered s (.access .okWrite))

/-- R109: vector resolution. With an FIQ pending or no IRQ pending it is the default address;
otherwise the address of the enabled slot of lowest index whose source is a pending IRQ line; and
the default address if there is no such slot. -/
def Obligations.ResolutionTakesTheLowestMatchingSlot : Prop :=
  ∀ v : Vic,
    let irqs : Word := (v.hw ||| v.sw) &&& v.enable &&& ~~~v.select
    let fiqs : Word := (v.hw ||| v.sw) &&& v.enable &&& v.select
    (fiqs ≠ 0 ∨ irqs = 0 → isrAddress v = v.defvect)
      ∧ (fiqs = 0 → irqs ≠ 0 → ∀ (i : Nat) (h : i < 16),
          v.slots[i].en = true → irqs.getLsbD v.slots[i].src.toNat = true →
          (∀ (j : Nat) (hj : j < i),
            ¬ (v.slots[j].en = true ∧ irqs.getLsbD v.slots[j].src.toNat = true)) →
          isrAddress v = v.slots[i].addr)
      ∧ (fiqs = 0 → irqs ≠ 0 →
          (∀ (j : Nat) (hj : j < 16),
            ¬ (v.slots[j].en = true ∧ irqs.getLsbD v.slots[j].src.toNat = true)) →
          isrAddress v = v.defvect)

/-- R114, R116: reads of VectAddr[i] and VectCntl[i]; the latter is the enable flag at bit 5 over
the source line, with bits 31:6 zero. -/
def Obligations.SlotReadsReturnTheSlot : Prop :=
  (∀ (i : Nat) (d : Word), i < 16 →
      decode ⟨BitVec.ofNat 16 (0x4100 + 4 * i), d⟩ = .instr (.vicVectAddrSlotRd i)
      ∧ decode ⟨BitVec.ofNat 16 (0x4200 + 4 * i), d⟩ = .instr (.vicVectCntlSlotRd i))
    ∧ ∀ (s : State) (v : Vic) (i : Nat) (h : i < 16), VicReady s v →
      exec (.vicVectAddrSlotRd i) s = .next (answered s (.access (.okRead v.slots[i].addr)))
      ∧ ∃ c : Word, exec (.vicVectCntlSlotRd i) s = .next (answered s (.access (.okRead c)))
        ∧ c.toNat = (if v.slots[i].en then 32 else 0) + v.slots[i].src.toNat

/-- R115: a VectAddr[i] write sets the slot's address, and leaves its enable flag, its source and
every other slot. -/
def Obligations.SlotAddressWriteSetsTheAddress : Prop :=
  (∀ (i : Nat) (w : Word), i < 16 →
      decode ⟨BitVec.ofNat 16 (0x5100 + 4 * i), w⟩ = .instr (.vicVectAddrSlotWr i w))
    ∧ ∀ (s : State) (v : Vic) (i : Nat) (h : i < 16) (w : Word), VicReady s v →
      exec (.vicVectAddrSlotWr i w) s
        = .next (afterVic s { v with slots := v.slots.set i { v.slots[i] with addr := w } }
            (.access .okWrite))

/-- VIC_VECTCNTLn_WR (41_vic.md R117, the spec's decision D10): the write sets the slot's enable
flag from bit 5 and its source from bits 4:0, ignores the rest of the word, and leaves the address.
-/
def Obligations.SlotControlWriteSetsEnableAndSource : Prop :=
  (∀ (i : Nat) (w : Word), i < 16 →
      decode ⟨BitVec.ofNat 16 (0x5200 + 4 * i), w⟩ = .instr (.vicVectCntlSlotWr i w))
    ∧ ∀ (s : State) (v : Vic) (i : Nat) (h : i < 16) (w : Word), VicReady s v →
      exec (.vicVectCntlSlotWr i w) s
        = .next (afterVic s { v with
            slots := v.slots.set i { v.slots[i] with
              en := w.getLsbD 5, src := BitVec.ofNat 5 (w.toNat % 32) } } (.access .okWrite))

/-- The identification words are constants (41_vic.md R118 to R121, the spec's decision D22). -/
def Obligations.IdentificationWordsAreConstant : Prop :=
  (∀ d : Word, decode ⟨0x4FE0#16, d⟩ = .instr .vicHwId0Rd
      ∧ decode ⟨0x4FE4#16, d⟩ = .instr .vicHwId1Rd
      ∧ decode ⟨0x4FE8#16, d⟩ = .instr .vicHwId2Rd
      ∧ decode ⟨0x4FEC#16, d⟩ = .instr .vicHwId3Rd)
    ∧ ∀ (s : State) (v : Vic), VicReady s v →
      exec .vicHwId0Rd s = .next (answered s (.access (.okRead 0x90#32)))
      ∧ exec .vicHwId1Rd s = .next (answered s (.access (.okRead 0x11#32)))
      ∧ exec .vicHwId2Rd s = .next (answered s (.access (.okRead 0x04#32)))
      ∧ exec .vicHwId3Rd s = .next (answered s (.access (.okRead 0x00#32)))

/-- 41_vic.md R127 (the spec's decision D23) and R128: `assert(s)` sets bit `s` of the hardware
lines, `clear(s)` clears it, and neither touches another bit; an ill-formed one, source 32 or more,
is refused. -/
def Obligations.PortCallsEditOneHardwareLine : Prop :=
  (∀ (n : Nat) (d : Word), n < 32 →
      decode ⟨BitVec.ofNat 16 (0x8000 + n), d⟩ = .instr (.vicAssert n)
      ∧ decode ⟨BitVec.ofNat 16 (0x9000 + n), d⟩ = .instr (.vicClear n))
    ∧ (∀ (s : State) (v : Vic) (n : Nat), VicReady s v → n < 32 →
        (∃ e : Word, exec (.vicAssert n) s = .next (afterVic s { v with hw := e } .portDone)
          ∧ ∀ m, m < 32 → e.getLsbD m = (decide (m = n) || v.hw.getLsbD m))
        ∧ (∃ e : Word, exec (.vicClear n) s = .next (afterVic s { v with hw := e } .portDone)
          ∧ ∀ m, m < 32 → e.getLsbD m = (!decide (m = n) && v.hw.getLsbD m)))
    ∧ (∀ (s : State) (n : Nat), 32 ≤ n →
        exec (.vicAssert n) s = .refused .sourceOutOfRange
        ∧ exec (.vicClear n) s = .refused .sourceOutOfRange)

/-- 41_vic.md R126 (the spec's decisions D5 for misaligned offsets and D6 for offsets of any size,
assumption 8): a Vic access to any offset not in R41, of any size of offset and in either direction,
reports `UnexpectedAddress` and changes nothing. -/
def Obligations.UnmappedVicOffsetsAreUnexpected : Prop :=
  ∀ (s : State) (inst now off : Nat) (dir : Dir) (w : Word) (rest : List Request) (v : Vic),
    s.pending = ⟨inst, now, .bus .vic dir .word off w⟩ :: rest → ¬ VicOffset off →
    s.halted = false → s.vics[inst]? = some v →
    step s = .next { s with
      inst := inst, now := now, pending := rest, response := .access .unexpectedAddress }

/-- 41_vic.md R131, which the spec derives (laws 1, 2 and 4), and law 3 and R143 in the form the
resolver has: among the matching enabled slots the one of lowest index answers (the reading of law 3
is the model's, assumption 12). -/
def Obligations.RoutingLawsHold : Prop :=
  ∀ v : Vic,
    ((irqLine v = true ↔ ∃ n, ((v.hw ||| v.sw) &&& v.enable &&& ~~~v.select).getLsbD n = true)
      ∧ (fiqLine v = true ↔ ∃ n, ((v.hw ||| v.sw) &&& v.enable &&& v.select).getLsbD n = true))
    ∧ (irqBits v ||| fiqBits v = (v.hw ||| v.sw) &&& v.enable ∧ irqBits v &&& fiqBits v = 0)
    ∧ (∀ (i j : Nat) (hij : i < j) (hj : j < 16), fiqLine v = false →
        v.slots[i].en = true → v.slots[j].en = true → v.slots[i].src ≠ v.slots[j].src →
        (irqBits v).getLsbD v.slots[i].src.toNat = true →
        (irqBits v).getLsbD v.slots[j].src.toNat = true →
        (∀ (k : Nat) (hk : k < i), slotMatches (irqBits v) v.slots[k] = false) →
        isrAddress v = v.slots[i].addr)
    ∧ ((fiqLine v = false ∧ irqLine v = false) ∨ fiqLine v = true → isrAddress v = v.defvect)

/-- 10_state.md R31 to R36 (that an IntEnable write leaves exactly the word is the spec's decision
D21, assumption 8): every field of a Vic has its own writers: no other operation, on this or any
other instance, changes it. For a slot the two writers are told apart by the address: a VectAddr[i]
write leaves the word there, a VectCntl[i] write leaves it as it was. -/
def Obligations.EachVicFieldHasItsOwnWriters : Prop :=
  ∀ (i : Instr) (s s' : State) (k : Nat) (v v' : Vic), exec i s = .next s' →
    s.vics[k]? = some v → s'.vics[k]? = some v' →
    (v'.hw ≠ v.hw → k = s.inst ∧ ∃ n, n < 32 ∧
        ((i = .vicAssert n ∧ v.hw.getLsbD n = false ∧ v'.hw.getLsbD n = true)
          ∨ (i = .vicClear n ∧ v.hw.getLsbD n = true ∧ v'.hw.getLsbD n = false)))
      ∧ (v'.sw ≠ v.sw → k = s.inst ∧ ∃ w,
          (i = .vicSoftIntWr w ∧ v'.sw = v.sw ||| w)
            ∨ (i = .vicSoftIntClearWr w ∧ v'.sw = v.sw &&& ~~~w))
      ∧ (v'.enable ≠ v.enable → k = s.inst ∧ ∃ w,
          (i = .vicIntEnableWr w ∧ v'.enable = w)
            ∨ (i = .vicIntEnClearWr w ∧ v'.enable = v.enable &&& ~~~w))
      ∧ (v'.select ≠ v.select → k = s.inst ∧ i = .vicIntSelectWr v'.select)
      ∧ (v'.defvect ≠ v.defvect → k = s.inst ∧ i = .vicDefVectAddrWr v'.defvect)
      ∧ (∀ (n : Nat) (h : n < 16), v'.slots[n] ≠ v.slots[n] → k = s.inst ∧ ∃ w,
          (i = .vicVectAddrSlotWr n w ∧ v'.slots[n].addr = w)
            ∨ (i = .vicVectCntlSlotWr n w ∧ v'.slots[n].addr = v.slots[n].addr))

/-- 20_memory.md R53 and R54, which the spec derives: a Vic operation done twice with nothing in
between leaves the state, and gives the answer, of doing it once; and a Vic read changes nothing but
the answer. -/
def Obligations.VicOperationsAreIdempotentAndReadsPure : Prop :=
  (∀ (i : Instr) (s s1 : State), i.device = .vic → exec i s = .next s1 → exec i s1 = .next s1)
    ∧ (∀ (i : Instr) (s s1 : State), i.device = .vic → (encode i).key.getLsbD 15 = false →
        (encode i).key.getLsbD 12 = false → exec i s = .next s1 → s1 = answered s s1.response)

/-! ### Rules over all operations -/

/-- 20_memory.md R52, which the spec derives: two Timer reads at the same time leave the same state
as one. -/
def Obligations.TimerReadsAtOneTimeAreIdempotent : Prop :=
  ∀ (i : Instr) (s s1 : State), i.device = .timer → (encode i).key.getLsbD 12 = false →
    exec i s = .next s1 → s1.halted = false → exec i s1 = .next s1

/-- 10_state.md R39, R40, R42, R43 (the spec's decisions D21 for IntEnable, D9 for Control bit 7,
D7, D8 and D10 for the rest of Control, D10 for VectCntl; assumption 8): what is written to a
register is what it then reads, but for the unused bits, which read 0, and the bits above a 16-bit
Timer's width. -/
def Obligations.WrittenWordsReadBack : Prop :=
  (∀ (s s1 : State) (v : Vic) (w : Word), VicReady s v →
      (exec (.vicIntSelectWr w) s = .next s1 →
        exec .vicIntSelectRd s1 = .next (answered s1 (.access (.okRead w))))
      ∧ (exec (.vicIntEnableWr w) s = .next s1 →
        exec .vicIntEnableRd s1 = .next (answered s1 (.access (.okRead w))))
      ∧ (exec (.vicDefVectAddrWr w) s = .next s1 →
        exec .vicDefVectAddrRd s1 = .next (answered s1 (.access (.okRead w))))
      ∧ (∀ i, i < 16 → exec (.vicVectAddrSlotWr i w) s = .next s1 →
        exec (.vicVectAddrSlotRd i) s1 = .next (answered s1 (.access (.okRead w))))
      ∧ (∀ i, i < 16 → exec (.vicVectCntlSlotWr i w) s = .next s1 →
        exec (.vicVectCntlSlotRd i) s1 = .next (answered s1 (.access (.okRead (w &&& 0x3F#32))))))
    ∧ (∀ (s s1 : State) (w : Word), exec (.tmrCtrlWr w) s = .next s1 → s1.halted = false →
        ∃ s2, exec .tmrCtrlRd s1 = .next s2
          ∧ s2.response = .access (.okRead (w &&& 0xC8#32)))
    ∧ (∀ (s s1 : State) (t : Timer) (w : Word), s.timers[s.inst]? = some t →
        exec (.tmrLoadWr w) s = .next s1 → s1.halted = false →
        (∃ s2, exec .tmrLoadRd s1 = .next s2
          ∧ s2.response = .access (.okRead (BitVec.ofNat 32 (w.toNat % counterSize t.bits))))
        ∧ (∃ s2, exec .tmrValueRd s1 = .next s2
          ∧ s2.response = .access (.okRead (BitVec.ofNat 32 (w.toNat % counterSize t.bits)))))

/-- 00_scope.md R15 (the spec's decision D25; what a fatal access leaves is assumption 4): the
frame. An operation changes nothing but the one instance it addresses, the report, and, when it is
fatal, the run's mark and the counter of free values. -/
def Obligations.OperationsTouchOnlyTheirInstance : Prop :=
  ∀ (i : Instr) (s s' : State), exec i s = .next s' →
    (i.device = .timer → s'.vics = s.vics) ∧ (i.device = .vic → s'.timers = s.timers)
      ∧ (∀ k, k ≠ s.inst → s'.timers[k]? = s.timers[k]? ∧ s'.vics[k]? = s.vics[k]?)
      ∧ s'.inst = s.inst ∧ s'.now = s.now ∧ s'.pending = s.pending
      ∧ (s'.halted = s.halted → s'.draws = s.draws)

/-- 20_memory.md R59, which the spec derives: operations on different instances commute: in either
order they leave the same devices, and each gives the answer it gives alone, when neither is fatal.
-/
def Obligations.OperationsOnDifferentInstancesCommute : Prop :=
  ∀ (i j : Instr) (s si sj : State) (k l a b : Nat), (i.device ≠ j.device ∨ k ≠ l) →
    exec i { s with inst := k, now := a } = .next si → si.halted = false →
    exec j { s with inst := l, now := b } = .next sj → sj.halted = false →
    ∃ sij sji, exec j { si with inst := l, now := b } = .next sij
      ∧ exec i { sj with inst := k, now := a } = .next sji
      ∧ sij.timers = sji.timers ∧ sij.vics = sji.vics
      ∧ sij.halted = false ∧ sji.halted = false
      ∧ sij.response = sj.response ∧ sji.response = si.response

/-- 60_exceptions.md R138 (the spec's decision D20): a recoverable outcome changes no state but, in
a Timer access, what the lazy update changes; and the block goes on. -/
def Obligations.RecoverableOutcomesChangeNothing : Prop :=
  ∀ (i : Instr) (s s' : State) (o : AccessOutcome), exec i s = .next s' →
    s'.response = .access o → isRecoverable o = true →
    s'.halted = false
      ∧ (i.device = .vic → s' = answered s (.access o))
      ∧ (i.device = .timer → ∃ t u, TimerReady s t u ∧ s' = afterTimer s u o)

/-- 10_state.md R23, R24, R25 (the polarities are the spec's decisions D7 to D9, assumption 8):
`enabled`, `mode` and `clksel` are written only by a Control write to their Timer, from bits 7, 6
and 3. -/
def Obligations.OnlyControlWritesChangeTheSettings : Prop :=
  ∀ (i : Instr) (s s' : State) (k : Nat) (t t' : Timer), exec i s = .next s' → s'.halted = false →
    s.timers[k]? = some t → s'.timers[k]? = some t' →
    (t'.enabled ≠ t.enabled ∨ t'.mode ≠ t.mode ∨ t'.clksel ≠ t.clksel) →
    k = s.inst ∧ ∃ v, i = .tmrCtrlWr v ∧ t'.enabled = v.getLsbD 7
      ∧ (t'.mode = .periodic ↔ v.getLsbD 6 = true) ∧ (t'.clksel = .k508 ↔ v.getLsbD 3 = true)

/-- 10_state.md R21 and 70_reset_and_hazards.md R155 (that a Control write with bit 7 = 0 is what
disables is the spec's decision D9, assumption 8): a load value appears only by a Load write to a
disabled Timer, and disappears only when a Control write disables it. -/
def Obligations.LoadValueComesAndGoes : Prop :=
  ∀ (i : Instr) (s s' : State) (k : Nat) (t t' : Timer), exec i s = .next s' → s'.halted = false →
    s.timers[k]? = some t → s'.timers[k]? = some t' → t'.load ≠ t.load →
    k = s.inst
      ∧ ((∃ v, i = .tmrLoadWr v ∧ t.enabled = false
            ∧ t'.load = some (v.toNat % counterSize t.bits))
        ∨ (∃ v, i = .tmrCtrlWr v ∧ t.enabled = true ∧ v.getLsbD 7 = false ∧ t'.load = none))

/-- R20, R151, R155 (for a fatal step, assumption 4): no step changes a Timer's width, or makes or
destroys an instance. -/
def Obligations.InstancesKeepTheirShape : Prop :=
  ∀ s s' : State, step s = .next s' →
    s'.timers.map (fun t => t.bits) = s.timers.map (fun t => t.bits)
      ∧ s'.vics.length = s.vics.length

/-- 70_reset_and_hazards.md R164, which the spec derives: the wrap invariant, kept by every step:
counts and load values stay within the wrap mask (and fractions below one tick, R19) as long as the
run is not halted. -/
def Obligations.StepKeepsTheTimerRanges : Prop :=
  ∀ s s' : State, s.Sound → step s = .next s' → s'.Sound

/-- 10_state.md R19 and 70_reset_and_hazards.md R153 (the spec's decision D15; the reset state's
platform is assumptions 1, 2 and 5): every legal construction has the ranges of the wrap invariant,
and so has the reset state. -/
def Obligations.ConstructionHasTheTimerRanges : Prop :=
  (∀ p : Platform, Platform.wf p = true → (State.construct p).Sound) ∧ State.reset.Sound

/-- A request steps exactly when the run is not halted (60_exceptions.md R137, the spec's decision
D19) and the following hold. From 70_reset_and_hazards.md R161 (decisions D3, D13, D23 and D28): a
clock reading not before the Timer's last, a 32-bit access, a source line below 32. Not in R161: no
reserved key (30_encoding.md R73, decision D2), and an instance there is; that these two give no
step is the model's (assumption 6). A step here is a next state, and an access that ends fatally is
one (assumption 4). A name query asks only that the run is not halted (assumption 9). -/
def Obligations.StepsExactlyWhenTheDutiesAreMet : Prop :=
  ∀ (s : State) (r : Request) (rest : List Request), s.pending = r :: rest →
    ((∃ s', step s = .next s') ↔ s.halted = false ∧ dutiesMet s r = true)

/-! ### Reset -/

/-- 70_reset_and_hazards.md R153 (the spec's decision D15, and D7, D8 and D10 for what Control
reads): the construction of a Timer, for every draw of the open parameters; Control then reads 0
only for `FreeRunning` and `K2`. -/
def Obligations.TimersAreConstructedDisabled : Prop :=
  ∀ (p : Platform) (k : Nat) (q : TimerParams), p.timers[k]? = some q →
    ∃ t, (State.construct p).timers[k]? = some t
      ∧ t = { bits := q.bits, load := none, value := q.resetValue, enabled := false,
              mode := q.resetMode, clksel := q.resetClksel, frac := 0, last := p.now0 }
      ∧ (controlWord t = 0 ↔ q.resetMode = .freeRunning ∧ q.resetClksel = .k2)
      ∧ (State.construct p).halted = false

/-- R154: a constructed Vic is all zero: neither line is raised, and every readable register reads 0
but the identification words; Protection answers `Stub(0)`. -/
def Obligations.VicsAreConstructedZero : Prop :=
  ∀ (p : Platform) (k : Nat), k < p.vics →
    let s : State := { State.construct p with inst := k }
    (∃ v, s.vics[k]? = some v ∧ v.hw = 0 ∧ v.sw = 0 ∧ v.enable = 0 ∧ v.select = 0 ∧ v.defvect = 0
        ∧ ∀ (n : Nat) (h : n < 16), v.slots[n] = { src := 0, addr := 0, en := false })
      ∧ exec .vicIrq s = .next (answered s (.level false))
      ∧ exec .vicFiq s = .next (answered s (.level false))
      ∧ (∀ i, i ∈ [.vicIrqStatusRd, .vicFiqStatusRd, .vicRawIntrRd, .vicIntSelectRd,
            .vicIntEnableRd, .vicSoftIntRd, .vicVectAddrRd, .vicDefVectAddrRd] →
          exec i s = .next (answered s (.access (.okRead 0))))
      ∧ (∀ n, n < 16 →
          exec (.vicVectAddrSlotRd n) s = .next (answered s (.access (.okRead 0)))
          ∧ exec (.vicVectCntlSlotRd n) s = .next (answered s (.access (.okRead 0))))
      ∧ exec .vicProtectionRd s = .next (answered s (.access (.stubRead 0)))

/-- 10_state.md R29, which the spec derives: the reset values of `T.frac` and `T.last` cannot be
observed. Two states that differ only in the fractions and update times of disabled Timers give the
same report at every step both take, and stay so related. -/
def Obligations.FractionAndTimestampOfDisabledTimersAreUnobservable : Prop :=
  ∀ s s' u u' : State, s' = { s with timers := s'.timers } →
    List.Forall₂ SameButUnobservable s.timers s'.timers →
    step s = .next u → step s' = .next u' →
    u'.response = u.response ∧ u' = { u with timers := u'.timers }
      ∧ List.Forall₂ SameButUnobservable u.timers u'.timers

/-! ### The debug collaborator -/

/-- 60_exceptions.md R150 (the spec's decision D34; assumption 9): a name query answers the
register's name and changes nothing else; an offset has a name exactly when the device has a
register there. -/
def Obligations.NameQueriesChangeNothing : Prop :=
  (∀ (s : State) (inst now off : Nat) (dev : Device) (rest : List Request),
      s.pending = ⟨inst, now, .nameQuery dev off⟩ :: rest → s.halted = false →
      step s = .next { s with
        inst := inst, now := now, pending := rest, response := .name (registerName dev off) })
    ∧ (∀ off, (registerName .timer off).isSome = true ↔ TimerOffset off)
    ∧ (∀ off, (registerName .vic off).isSome = true ↔ VicOffset off)
    ∧ ([0x00, 0x04, 0x08, 0x0C].map (fun off => (registerName .timer off).map RegName.text)
        = [some "Load", some "Value", some "Control", some "Clear"])
    ∧ (∀ i, i < 16 → registerName .vic (0x100 + 4 * i) = some (.vectAddrSlot i)
        ∧ registerName .vic (0x200 + 4 * i) = some (.vectCntlSlot i))
end

