-- ==== Sys2Proof/Laws/Decode.lean ====
section
/-! SUPPORT. What the decoder can answer, and how a matched key is made of its row's fixed bits and its
operand field. -/

namespace Sys2Proof

/-- Everything a decoded operation says: the row that selected the key built it (R68). -/
theorem decode_instr {w : OpWords} {i : Instr} (h : decode w = .instr i) :
    ∃ r ∈ opcodeTable, w.key &&& r.mask = r.bits ∧ i = r.build w.key w.data := by
  unfold decode at h
  split at h
  · rename_i r hr
    cases h
    exact ⟨r, List.mem_of_find?_eq_some hr, by
      simpa [OpcodeRow.selects] using List.find?_some hr, rfl⟩
  · unfold decodeUnmatched at h
    split_ifs at h

theorem keySlot_lt (k : Key) : keySlot k < 16 := by
  have : keySlot k ≤ 15 := by simp only [keySlot, BitVec.toNat_and]; exact Nat.and_le_right
  omega

theorem keySource_lt (k : Key) : keySource k < 32 := by
  have : keySource k ≤ 31 := by simp only [keySource, BitVec.toNat_and]; exact Nat.and_le_right
  omega

/-- A key is its bits outside 5:2 and its slot index at bit 2. -/
theorem key_of_slot (k : Key) :
    k = (k &&& 0xFFC3#16) ||| (BitVec.ofNat 16 (keySlot k) <<< 2) := by
  simp only [keySlot, BitVec.ofNat_toNat, BitVec.setWidth_eq]
  ext n hn
  interval_cases n <;> simp

/-- A key is its bits outside 4:0 and its source line at bit 0. -/
theorem key_of_source (k : Key) :
    k = (k &&& 0xFFE0#16) ||| BitVec.ofNat 16 (keySource k) := by
  simp only [keySource, BitVec.ofNat_toNat, BitVec.setWidth_eq]
  ext n hn
  interval_cases n <;> simp

/-- The operation of every row is well formed, whatever the key and the data. -/
theorem build_wellFormed (k : Key) (d : Word) : ∀ r ∈ opcodeTable, (r.build k d).WellFormed := by
  have h1 := keySlot_lt k
  have h2 := keySource_lt k
  simp [opcodeTable, timerRows, vicMaskRows, vicVectorRows, vicIdentRows, vicPortRows,
    Instr.WellFormed, Instr.wellFormed, h1, h2]

end Sys2Proof
end

