-- ==== Sys2Proof/Laws/State.lean ====
section
/-! SUPPORT. One lemma per field per update of the state, true by `rfl`, so that no later proof
unfolds a record update. -/

namespace Sys2Proof.Machine

open Sys2Proof

section Respond
variable (s : State) (r : Response)
@[simp] theorem State.respond_timers : (s.respond r).timers = s.timers := rfl
@[simp] theorem State.respond_vics : (s.respond r).vics = s.vics := rfl
@[simp] theorem State.respond_halted : (s.respond r).halted = s.halted := rfl
@[simp] theorem State.respond_inst : (s.respond r).inst = s.inst := rfl
@[simp] theorem State.respond_now : (s.respond r).now = s.now := rfl
@[simp] theorem State.respond_response : (s.respond r).response = r := rfl
@[simp] theorem State.respond_pending : (s.respond r).pending = s.pending := rfl
@[simp] theorem State.respond_draws : (s.respond r).draws = s.draws := rfl
end Respond

section PutTimer
variable (s : State) (t : Timer)
@[simp] theorem State.putTimer_timers : (s.putTimer t).timers = s.timers.set s.inst t := rfl
@[simp] theorem State.putTimer_vics : (s.putTimer t).vics = s.vics := rfl
@[simp] theorem State.putTimer_halted : (s.putTimer t).halted = s.halted := rfl
@[simp] theorem State.putTimer_inst : (s.putTimer t).inst = s.inst := rfl
@[simp] theorem State.putTimer_now : (s.putTimer t).now = s.now := rfl
@[simp] theorem State.putTimer_response : (s.putTimer t).response = s.response := rfl
@[simp] theorem State.putTimer_pending : (s.putTimer t).pending = s.pending := rfl
@[simp] theorem State.putTimer_draws : (s.putTimer t).draws = s.draws := rfl
end PutTimer

section PutVic
variable (s : State) (v : Vic)
@[simp] theorem State.putVic_timers : (s.putVic v).timers = s.timers := rfl
@[simp] theorem State.putVic_vics : (s.putVic v).vics = s.vics.set s.inst v := rfl
@[simp] theorem State.putVic_halted : (s.putVic v).halted = s.halted := rfl
@[simp] theorem State.putVic_inst : (s.putVic v).inst = s.inst := rfl
@[simp] theorem State.putVic_now : (s.putVic v).now = s.now := rfl
@[simp] theorem State.putVic_response : (s.putVic v).response = s.response := rfl
@[simp] theorem State.putVic_pending : (s.putVic v).pending = s.pending := rfl
@[simp] theorem State.putVic_draws : (s.putVic v).draws = s.draws := rfl
end PutVic

section RaiseFatal
variable (s : State) (t : Timer) (kind : FatalKind)
@[simp] theorem State.raiseFatal_timers :
    (s.raiseFatal t kind).timers = s.timers.set s.inst (unspecifiedTimer t.bits s.draws) := rfl
@[simp] theorem State.raiseFatal_vics : (s.raiseFatal t kind).vics = s.vics := rfl
@[simp] theorem State.raiseFatal_halted : (s.raiseFatal t kind).halted = true := rfl
@[simp] theorem State.raiseFatal_inst : (s.raiseFatal t kind).inst = s.inst := rfl
@[simp] theorem State.raiseFatal_now : (s.raiseFatal t kind).now = s.now := rfl
@[simp] theorem State.raiseFatal_response :
    (s.raiseFatal t kind).response = .access (.fatal kind) := rfl
@[simp] theorem State.raiseFatal_pending : (s.raiseFatal t kind).pending = s.pending := rfl
@[simp] theorem State.raiseFatal_draws : (s.raiseFatal t kind).draws = s.draws + 1 := rfl
@[simp] theorem unspecifiedTimer_bits (b : Width) (n : Nat) : (unspecifiedTimer b n).bits = b := rfl
end RaiseFatal

section Accept
variable (s : State) (r : Request) (rest : List Request)
@[simp] theorem State.accept_timers : (s.accept r rest).timers = s.timers := rfl
@[simp] theorem State.accept_vics : (s.accept r rest).vics = s.vics := rfl
@[simp] theorem State.accept_halted : (s.accept r rest).halted = s.halted := rfl
@[simp] theorem State.accept_inst : (s.accept r rest).inst = r.inst := rfl
@[simp] theorem State.accept_now : (s.accept r rest).now = r.now := rfl
@[simp] theorem State.accept_response : (s.accept r rest).response = s.response := rfl
@[simp] theorem State.accept_pending : (s.accept r rest).pending = rest := rfl
@[simp] theorem State.accept_draws : (s.accept r rest).draws = s.draws := rfl
end Accept

section PutSlot
variable (v : Vic) (i : Nat) (h : i < 16) (sl : Slot)
@[simp] theorem putSlot_hw : (putSlot v i h sl).hw = v.hw := rfl
@[simp] theorem putSlot_sw : (putSlot v i h sl).sw = v.sw := rfl
@[simp] theorem putSlot_enable : (putSlot v i h sl).enable = v.enable := rfl
@[simp] theorem putSlot_select : (putSlot v i h sl).select = v.select := rfl
@[simp] theorem putSlot_defvect : (putSlot v i h sl).defvect = v.defvect := rfl
@[simp] theorem putSlot_slots : (putSlot v i h sl).slots = v.slots.set i sl := rfl
end PutSlot

section ControlWrite
variable (v : Word) (t : Timer)
@[simp] theorem controlWrite_bits : (controlWrite v t).bits = t.bits := rfl
@[simp] theorem controlWrite_value : (controlWrite v t).value = t.value := rfl
@[simp] theorem controlWrite_last : (controlWrite v t).last = t.last := rfl
@[simp] theorem controlWrite_mode : (controlWrite v t).mode = controlMode v := rfl
@[simp] theorem controlWrite_clksel : (controlWrite v t).clksel = controlClksel v := rfl
@[simp] theorem controlWrite_enabled : (controlWrite v t).enabled = controlEnable v := rfl
@[simp] theorem controlWrite_frac :
    (controlWrite v t).frac = if !t.enabled && controlEnable v then 0 else t.frac := rfl
@[simp] theorem controlWrite_load :
    (controlWrite v t).load = if t.enabled && !controlEnable v then none else t.load := rfl
end ControlWrite

end Sys2Proof.Machine
end

