-- ==== Sys2Proof/Laws/Ops.lean ====
section
/-! SUPPORT. What each shared operation can do, said once: when it answers a next state, and which. -/

namespace Sys2Proof.Machine

open Sys2Proof

/-! ### The lazy update -/

theorem lazyUpdate_disabled {now : Nat} {t : Timer} (h : t.enabled = false) :
    lazyUpdate now t = .ok { t with last := now } := by simp [lazyUpdate, h]

/-- An enabled Timer's update, from the counter value `countDown` gives. -/
theorem lazyUpdate_enabled {now x : Nat} {t : Timer} (h : t.enabled = true)
    (hx : countDown t (microticks now t / microticksPerTick) = .ok x) :
    lazyUpdate now t
      = .ok { t with value := x, frac := microticks now t % microticksPerTick, last := now } := by
  simp [lazyUpdate, h, hx]

/-- Everything a lazy update that succeeds can do. -/
theorem lazyUpdate_ok {now : Nat} {t u : Timer} (h : lazyUpdate now t = .ok u) :
    (t.enabled = false ∧ u = { t with last := now }) ∨
    (t.enabled = true ∧ ∃ x, countDown t (microticks now t / microticksPerTick) = .ok x ∧
      u = { t with value := x, frac := microticks now t % microticksPerTick, last := now }) := by
  unfold lazyUpdate at h
  split at h
  · rename_i he
    split at h
    · cases h
    · rename_i x hx
      cases h
      exact .inr ⟨he, x, hx, rfl⟩
  · rename_i he
    cases h
    exact .inl ⟨by simpa using he, rfl⟩

/-- A lazy update is fatal exactly when the countdown is. -/
theorem lazyUpdate_error {now : Nat} {t : Timer} {kind : FatalKind} :
    lazyUpdate now t = .error kind ↔
      t.enabled = true ∧ countDown t (microticks now t / microticksPerTick) = .error kind := by
  unfold lazyUpdate
  split
  · rename_i he
    split <;> simp_all
  · rename_i he
    simp [he]

/-- A lazy update leaves every field but the count, the fraction and the timestamp. -/
theorem lazyUpdate_frame {now : Nat} {t u : Timer} (h : lazyUpdate now t = .ok u) :
    u.bits = t.bits ∧ u.load = t.load ∧ u.enabled = t.enabled ∧ u.mode = t.mode
      ∧ u.clksel = t.clksel ∧ u.last = now := by
  obtain ⟨-, rfl⟩ | ⟨-, x, -, rfl⟩ := lazyUpdate_ok h <;> simp

/-! ### Timer accesses -/

/-- Everything a Timer access that answers a next state can have done (R77, R139). -/
theorem timerAccess_next {rule : Timer → Except FatalKind (Timer × AccessOutcome)} {s s' : State}
    (h : timerAccess rule s = .next s') :
    s.halted = false ∧ ∃ t, s.timers[s.inst]? = some t ∧ t.last ≤ s.now ∧
      ((∃ kind, lazyUpdate s.now t = .error kind ∧ s' = s.raiseFatal t kind) ∨
       (∃ u, lazyUpdate s.now t = .ok u ∧
         ((∃ kind, rule u = .error kind ∧ s' = s.raiseFatal t kind) ∨
          (∃ w o, rule u = .ok (w, o) ∧ s' = (s.putTimer w).respond (.access o))))) := by
  unfold timerAccess at h
  split at h
  · cases h
  rename_i hh
  refine ⟨by simpa using hh, ?_⟩
  split at h
  · cases h
  rename_i t ht
  split at h
  · cases h
  rename_i hl
  refine ⟨t, ht, Nat.le_of_not_lt hl, ?_⟩
  split at h
  · rename_i kind hk
    cases h
    exact .inl ⟨kind, hk, rfl⟩
  · rename_i u hu
    refine .inr ⟨u, hu, ?_⟩
    split at h
    · rename_i kind hk
      cases h
      exact .inl ⟨kind, hk, rfl⟩
    · rename_i w o hw
      cases h
      exact .inr ⟨w, o, hw, rfl⟩

section Ready
variable {rule : Timer → Except FatalKind (Timer × AccessOutcome)} {s : State} {t u w : Timer}
  {o : AccessOutcome} {kind : FatalKind}

theorem timerAccess_halted (h : s.halted = true) : timerAccess rule s = .fault .halted := by
  simp [timerAccess, h]

theorem timerAccess_clockWentBack (h : s.halted = false) (ht : s.timers[s.inst]? = some t)
    (hl : s.now < t.last) : timerAccess rule s = .refused .clockWentBack := by
  simp [timerAccess, h, ht, hl]

theorem timerAccess_lazyFatal (h : s.halted = false) (ht : s.timers[s.inst]? = some t)
    (hl : t.last ≤ s.now) (hk : lazyUpdate s.now t = .error kind) :
    timerAccess rule s = .next (s.raiseFatal t kind) := by
  simp [timerAccess, h, ht, Nat.not_lt.mpr hl, hk]

theorem timerAccess_ruleFatal (h : s.halted = false) (ht : s.timers[s.inst]? = some t)
    (hl : t.last ≤ s.now) (hu : lazyUpdate s.now t = .ok u) (hk : rule u = .error kind) :
    timerAccess rule s = .next (s.raiseFatal t kind) := by
  simp [timerAccess, h, ht, Nat.not_lt.mpr hl, hu, hk]

theorem timerAccess_ok (h : s.halted = false) (ht : s.timers[s.inst]? = some t)
    (hl : t.last ≤ s.now) (hu : lazyUpdate s.now t = .ok u) (hw : rule u = .ok (w, o)) :
    timerAccess rule s = .next ((s.putTimer w).respond (.access o)) := by
  simp [timerAccess, h, ht, Nat.not_lt.mpr hl, hu, hw]

end Ready

/-! ### Vic operations -/

section Vic
variable {answer : Vic → Response} {edit : Vic → Vic} {report : Response} {s s' : State} {v : Vic}

theorem vicQuery_next :
    vicQuery answer s = .next s' ↔
      s.halted = false ∧ ∃ v, s.vics[s.inst]? = some v ∧ s' = s.respond (answer v) := by
  cases h : s.halted <;> cases hv : s.vics[s.inst]? <;> simp [vicQuery, h, hv, eq_comm]

theorem vicUpdate_next :
    vicUpdate edit report s = .next s' ↔
      s.halted = false ∧ ∃ v, s.vics[s.inst]? = some v ∧ s' = (s.putVic (edit v)).respond report := by
  cases h : s.halted <;> cases hv : s.vics[s.inst]? <;> simp [vicUpdate, h, hv, eq_comm]

theorem vicQuery_ok (h : s.halted = false) (hv : s.vics[s.inst]? = some v) :
    vicQuery answer s = .next (s.respond (answer v)) := by simp [vicQuery, h, hv]

theorem vicUpdate_ok (h : s.halted = false) (hv : s.vics[s.inst]? = some v) :
    vicUpdate edit report s = .next ((s.putVic (edit v)).respond report) := by
  simp [vicUpdate, h, hv]

theorem vicQuery_halted (h : s.halted = true) : vicQuery answer s = .fault .halted := by
  simp [vicQuery, h]

theorem vicUpdate_halted (h : s.halted = true) : vicUpdate edit report s = .fault .halted := by
  simp [vicUpdate, h]

end Vic

/-! ### The step -/

theorem step_empty {s : State} (h : s.pending = []) : step s = .refused .noOperation := by
  simp [step, fetchOperation, h]

/-- What a step does with the oldest request, by what its operation is. -/
theorem step_cons {s : State} {r : Request} {rest : List Request} (h : s.pending = r :: rest) :
    step s = match r.op.decode with
      | .instr i => exec i (s.accept r rest)
      | .unmapped .timer => execTmrUnmapped (s.accept r rest)
      | .unmapped .vic => execVicUnmapped (s.accept r rest)
      | .name n => execNameQuery n (s.accept r rest)
      | .rejected why => .refused (.badOperation why) := by
  simp only [step, fetchOperation, h]
  cases r.op.decode with
  | unmapped d => cases d <;> rfl
  | _ => rfl

end Sys2Proof.Machine
end

