-- ==== Sys2Proof/Laws/Exec.lean ====
section
/-! SUPPORT. Every operation in one of two shapes: a Timer operation is `timerAccess` of its rule, and
a well-formed Vic operation is `vicQuery` of its answer or `vicUpdate` of its edit.  Facts about all
operations follow from facts about the rules and edits. -/

namespace Sys2Proof.Machine

open Sys2Proof

/-- What the rule of Timer operation `i` can do to an updated Timer (R80 to R87): leave it, load it,
set it up, or end fatally for one of two reasons. -/
structure TimerRuleOf (i : Instr) (rule : Timer → Except FatalKind (Timer × AccessOutcome)) : Prop where
  ok : ∀ u w o, rule u = .ok (w, o) →
    (w = u ∧ (∀ v, i ≠ .tmrLoadWr v) ∧ (∀ v, i ≠ .tmrCtrlWr v)) ∨
    (∃ v, i = .tmrLoadWr v ∧ u.enabled = false ∧ o = .okWrite ∧
      w = { u with load := some (loadField u.bits v), value := loadField u.bits v }) ∨
    (∃ v, i = .tmrCtrlWr v ∧ o = .okWrite ∧ w = controlWrite v u)
  error : ∀ u kind, rule u = .error kind ↔
    (i = .tmrLoadRd ∧ kind = .loadReadUnset ∧ u.load = none) ∨
    ((∃ v, i = .tmrLoadWr v) ∧ kind = .loadWriteEnabled ∧ u.enabled = true)

theorem loadReadRule_error (u : Timer) (kind : FatalKind) :
    loadReadRule u = .error kind ↔ kind = .loadReadUnset ∧ u.load = none := by
  cases h : u.load <;> simp [loadReadRule, h, eq_comm]

theorem loadReadRule_ok {u w : Timer} {o : AccessOutcome} :
    loadReadRule u = .ok (w, o) ↔ w = u ∧ ∃ n, u.load = some n ∧ o = .okRead (zext32 n) := by
  cases h : u.load <;> simp [loadReadRule, h, eq_comm]

theorem loadWriteRule_error (v : Word) (u : Timer) (kind : FatalKind) :
    loadWriteRule v u = .error kind ↔ kind = .loadWriteEnabled ∧ u.enabled = true := by
  cases h : u.enabled <;> simp [loadWriteRule, h, eq_comm]

theorem loadWriteRule_ok {v : Word} {u w : Timer} {o : AccessOutcome} :
    loadWriteRule v u = .ok (w, o) ↔ u.enabled = false ∧ o = .okWrite ∧
      w = { u with load := some (loadField u.bits v), value := loadField u.bits v } := by
  cases h : u.enabled
  · simp [loadWriteRule, h]
    constructor
    · rintro ⟨rfl, rfl⟩
      exact ⟨rfl, rfl⟩
    · rintro ⟨rfl, rfl⟩
      exact ⟨rfl, rfl⟩
  · simp [loadWriteRule, h]

/-- A rule that leaves the Timer and answers, whatever the Timer is, is the rule of an operation that
is neither a Load write, a Control write nor a Load read. -/
theorem timerRuleOf_answer {i : Instr} (answer : Timer → AccessOutcome) (h1 : i ≠ .tmrLoadRd)
    (h2 : ∀ v, i ≠ .tmrLoadWr v) (h3 : ∀ v, i ≠ .tmrCtrlWr v) :
    TimerRuleOf i (fun t => .ok (t, answer t)) where
  ok u w o hr := .inl ⟨by cases hr; rfl, h2, h3⟩
  error u kind := by simp [h1, h2]

/-- Every Timer operation is `timerAccess` of its rule. -/
theorem exec_timer {i : Instr} (h : i.device = .timer) :
    ∃ rule, (∀ s, exec i s = timerAccess rule s) ∧ TimerRuleOf i rule := by
  cases i <;> try (simp [Instr.device] at h; done)
  case tmrLoadRd =>
    exact ⟨loadReadRule, fun _ => rfl,
      ⟨fun u w o hr => .inl ⟨(loadReadRule_ok.mp hr).1, by simp, by simp⟩,
        fun u kind => by simp [loadReadRule_error]⟩⟩
  case tmrLoadWr v =>
    exact ⟨loadWriteRule v, fun _ => rfl,
      ⟨fun u w o hr => .inr (.inl ⟨v, rfl, loadWriteRule_ok.mp hr⟩),
        fun u kind => by simp [loadWriteRule_error]⟩⟩
  case tmrCtrlWr v =>
    exact ⟨fun t => .ok (controlWrite v t, .okWrite), fun _ => rfl,
      ⟨fun u w o hr => .inr (.inr ⟨v, rfl, by cases hr; exact ⟨rfl, rfl⟩⟩),
        fun u kind => by simp⟩⟩
  case tmrValueRd =>
    exact ⟨_, fun _ => rfl,
      timerRuleOf_answer (fun t => .okRead (zext32 t.value)) (by simp) (by simp) (by simp)⟩
  case tmrValueWr v =>
    exact ⟨_, fun _ => rfl, timerRuleOf_answer (fun _ => .invalidAccess) (by simp) (by simp) (by simp)⟩
  case tmrCtrlRd =>
    exact ⟨_, fun _ => rfl,
      timerRuleOf_answer (fun t => .okRead (controlWord t)) (by simp) (by simp) (by simp)⟩
  case tmrClearRd =>
    exact ⟨_, fun _ => rfl, timerRuleOf_answer (fun _ => .unimplemented) (by simp) (by simp) (by simp)⟩
  case tmrClearWr v =>
    exact ⟨_, fun _ => rfl, timerRuleOf_answer (fun _ => .unimplemented) (by simp) (by simp) (by simp)⟩

/-- A Vic operation either only answers, or edits the Vic and reports success. -/
theorem exec_vic {i : Instr} (h : i.device = .vic) (hw : i.WellFormed) :
    (∃ answer : Vic → Response, ∀ s, exec i s = vicQuery answer s) ∨
    (∃ (edit : Vic → Vic) (report : Response), (report = .access .okWrite ∨ report = .portDone) ∧
      ∀ s, exec i s = vicUpdate edit report s) := by
  cases i <;> try (simp [Instr.device] at h; done)
  case vicVectAddrSlotRd i | vicVectCntlSlotRd i =>
    have hi : i < 16 := by simpa [Instr.WellFormed, Instr.wellFormed] using hw
    exact .inl ⟨_, fun s => by
      first
      | exact dif_pos hi⟩
  case vicVectAddrSlotWr i w | vicVectCntlSlotWr i w =>
    have hi : i < 16 := by simpa [Instr.WellFormed, Instr.wellFormed] using hw
    exact .inr ⟨_, _, .inl rfl, fun s => dif_pos hi⟩
  case vicAssert n | vicClear n =>
    have hn : n < 32 := by simpa [Instr.WellFormed, Instr.wellFormed] using hw
    exact .inr ⟨_, _, .inr rfl, fun s => if_pos hn⟩
  all_goals
    first
    | exact .inl ⟨_, fun s => rfl⟩
    | exact .inr ⟨_, _, .inl rfl, fun s => rfl⟩

/-- An operation that answers a next state is well formed. -/
theorem wellFormed_of_exec_next {i : Instr} {s s' : State} (h : exec i s = .next s') :
    i.WellFormed := by
  cases i <;> simp only [Instr.WellFormed, Instr.wellFormed, decide_eq_true_eq]
  case vicVectAddrSlotRd | vicVectAddrSlotWr | vicVectCntlSlotRd | vicVectCntlSlotWr | vicAssert
      | vicClear =>
    by_contra hn
    simp [exec, execVicVectAddrSlotRd, execVicVectAddrSlotWr, execVicVectCntlSlotRd,
      execVicVectCntlSlotWr, execVicAssert, execVicClear, hn] at h

/-- An operation that answers a next state found the run not halted (R137). -/
theorem exec_next_running {i : Instr} {s s' : State} (h : exec i s = .next s') :
    s.halted = false := by
  cases hd : i.device
  · obtain ⟨rule, e, -⟩ := exec_timer hd
    rw [e] at h
    exact (timerAccess_next h).1
  · obtain ⟨a, e⟩ | ⟨ed, r, -, e⟩ := exec_vic hd (wellFormed_of_exec_next h)
    · rw [e, vicQuery_next] at h
      exact h.1
    · rw [e, vicUpdate_next] at h
      exact h.1

/-- Everything an operation that answers a next state can have done.  A Timer operation ended fatally,
or left the updated Timer, loaded it or set it up; a Vic operation answered, or edited its Vic and
reported success. -/
theorem exec_next_cases {i : Instr} {s s' : State} (h : exec i s = .next s') :
    (i.device = .timer ∧ ∃ t, s.timers[s.inst]? = some t ∧ t.last ≤ s.now ∧
      ((∃ kind, s' = s.raiseFatal t kind) ∨
       (∃ u w o, lazyUpdate s.now t = .ok u ∧
        ((w = u ∧ (∀ v, i ≠ .tmrLoadWr v) ∧ (∀ v, i ≠ .tmrCtrlWr v)) ∨
         (∃ v, i = .tmrLoadWr v ∧ u.enabled = false ∧ o = .okWrite ∧
           w = { u with load := some (loadField u.bits v), value := loadField u.bits v }) ∨
         (∃ v, i = .tmrCtrlWr v ∧ o = .okWrite ∧ w = controlWrite v u)) ∧
        s' = (s.putTimer w).respond (.access o)))) ∨
    (i.device = .vic ∧ ∃ v, s.vics[s.inst]? = some v ∧
      ((∃ r, s' = s.respond r) ∨
       (∃ v' r, (r = .access .okWrite ∨ r = .portDone) ∧ s' = (s.putVic v').respond r))) := by
  cases hd : i.device
  · obtain ⟨rule, e, hr⟩ := exec_timer hd
    rw [e] at h
    obtain ⟨-, t, ht, hl, hc⟩ := timerAccess_next h
    refine .inl ⟨rfl, t, ht, hl, ?_⟩
    rcases hc with ⟨kind, -, rfl⟩ | ⟨u, hu, ⟨kind, -, rfl⟩ | ⟨w, o, hw, rfl⟩⟩
    · exact .inl ⟨kind, rfl⟩
    · exact .inl ⟨kind, rfl⟩
    · exact .inr ⟨u, w, o, hu, hr.ok u w o hw, rfl⟩
  · obtain ⟨a, e⟩ | ⟨ed, r, hr, e⟩ := exec_vic hd (wellFormed_of_exec_next h)
    · rw [e, vicQuery_next] at h
      obtain ⟨-, v, hv, rfl⟩ := h
      exact .inr ⟨rfl, v, hv, .inl ⟨_, rfl⟩⟩
    · rw [e, vicUpdate_next] at h
      obtain ⟨-, v, hv, rfl⟩ := h
      exact .inr ⟨rfl, v, hv, .inr ⟨_, _, hr, rfl⟩⟩

/-- A relation that every operation, every bare answer, every fatal end and every bare lazy update
keeps holds between the state a request is accepted in and the state its step answers. -/
theorem step_next_of {P : State → State → Prop}
    (hexec : ∀ i s s', exec i s = .next s' → P s s')
    (hanswer : ∀ (s : State) r, s.halted = false → P s (s.respond r))
    (hfatal : ∀ (s : State) t kind, s.halted = false → s.timers[s.inst]? = some t →
      P s (s.raiseFatal t kind))
    (hupdate : ∀ (s : State) t u r, s.halted = false → s.timers[s.inst]? = some t →
      t.last ≤ s.now → lazyUpdate s.now t = .ok u → P s ((s.putTimer u).respond r))
    {s s' : State} {r : Request} {rest : List Request} (hp : s.pending = r :: rest)
    (h : step s = .next s') : P (s.accept r rest) s' := by
  rw [step_cons hp] at h
  cases hd : r.op.decode with
  | instr i => rw [hd] at h; exact hexec _ _ _ h
  | rejected why => rw [hd] at h; cases h
  | name n =>
    rw [hd] at h
    simp only [execNameQuery] at h
    split at h
    · cases h
    · rename_i h0
      cases h
      exact hanswer _ _ (by simpa using h0)
  | unmapped dev =>
    rw [hd] at h
    cases dev
    · obtain ⟨h0, t, ht, hl, hc⟩ := timerAccess_next h
      rcases hc with ⟨kind, -, rfl⟩ | ⟨u, hu, ⟨kind, hk, rfl⟩ | ⟨w, o, hw, rfl⟩⟩
      · exact hfatal _ _ _ h0 ht
      · cases hk
      · cases hw
        exact hupdate _ _ _ _ h0 ht hl hu
    · simp only [execVicUnmapped, vicQuery_next] at h
      obtain ⟨h0, v, -, rfl⟩ := h
      exact hanswer _ _ h0

end Sys2Proof.Machine
end

