-- ==== Sys2Proof/Laws/PerInstr.lean ====
section
/-! SUPPORT. Statements made per instruction (LAWS.json). -/

namespace Sys2Proof.Laws.EncodedKeyMatchesRow

open Sys2Proof

/-- The key of a well-formed operation's words matches a row of the opcode table with the operation's
mnemonic (spec/30_encoding.md R68, R70 to R72). -/
def Statement (i : Instr) : Prop :=
  i.WellFormed → opcodeTable.any (fun r => r.mnemonic == i.mnemonic && r.selects (encode i).key) = true

theorem tmrLoadRd : Statement .tmrLoadRd := fun _ =>
  (by decide : opcodeTable.any (fun r => r.mnemonic == "TMR_LOAD_RD" && r.selects 0x0000#16) = true)

theorem tmrLoadWr (v : Word) : Statement (.tmrLoadWr v) := fun _ =>
  (by decide : opcodeTable.any (fun r => r.mnemonic == "TMR_LOAD_WR" && r.selects 0x1000#16) = true)

theorem tmrValueRd : Statement .tmrValueRd := fun _ =>
  (by decide : opcodeTable.any (fun r => r.mnemonic == "TMR_VALUE_RD" && r.selects 0x0004#16) = true)

theorem tmrValueWr (v : Word) : Statement (.tmrValueWr v) := fun _ =>
  (by decide : opcodeTable.any (fun r => r.mnemonic == "TMR_VALUE_WR" && r.selects 0x1004#16) = true)

theorem tmrCtrlRd : Statement .tmrCtrlRd := fun _ =>
  (by decide : opcodeTable.any (fun r => r.mnemonic == "TMR_CTRL_RD" && r.selects 0x0008#16) = true)

theorem tmrCtrlWr (v : Word) : Statement (.tmrCtrlWr v) := fun _ =>
  (by decide : opcodeTable.any (fun r => r.mnemonic == "TMR_CTRL_WR" && r.selects 0x1008#16) = true)

theorem tmrClearRd : Statement .tmrClearRd := fun _ =>
  (by decide : opcodeTable.any (fun r => r.mnemonic == "TMR_CLEAR_RD" && r.selects 0x000C#16) = true)

theorem tmrClearWr (v : Word) : Statement (.tmrClearWr v) := fun _ =>
  (by decide : opcodeTable.any (fun r => r.mnemonic == "TMR_CLEAR_WR" && r.selects 0x100C#16) = true)

theorem vicIrqStatusRd : Statement .vicIrqStatusRd := fun _ =>
  (by decide : opcodeTable.any (fun r => r.mnemonic == "VIC_IRQSTATUS_RD" && r.selects 0x4000#16) = true)

theorem vicIrqStatusWr (v : Word) : Statement (.vicIrqStatusWr v) := fun _ =>
  (by decide : opcodeTable.any (fun r => r.mnemonic == "VIC_IRQSTATUS_WR" && r.selects 0x5000#16) = true)

theorem vicFiqStatusRd : Statement .vicFiqStatusRd := fun _ =>
  (by decide : opcodeTable.any (fun r => r.mnemonic == "VIC_FIQSTATUS_RD" && r.selects 0x4004#16) = true)

theorem vicFiqStatusWr (v : Word) : Statement (.vicFiqStatusWr v) := fun _ =>
  (by decide : opcodeTable.any (fun r => r.mnemonic == "VIC_FIQSTATUS_WR" && r.selects 0x5004#16) = true)

theorem vicRawIntrRd : Statement .vicRawIntrRd := fun _ =>
  (by decide : opcodeTable.any (fun r => r.mnemonic == "VIC_RAWINTR_RD" && r.selects 0x4008#16) = true)

theorem vicRawIntrWr (v : Word) : Statement (.vicRawIntrWr v) := fun _ =>
  (by decide : opcodeTable.any (fun r => r.mnemonic == "VIC_RAWINTR_WR" && r.selects 0x5008#16) = true)

theorem vicIntSelectRd : Statement .vicIntSelectRd := fun _ =>
  (by decide : opcodeTable.any (fun r => r.mnemonic == "VIC_INTSELECT_RD" && r.selects 0x400C#16) = true)

theorem vicIntSelectWr (v : Word) : Statement (.vicIntSelectWr v) := fun _ =>
  (by decide : opcodeTable.any (fun r => r.mnemonic == "VIC_INTSELECT_WR" && r.selects 0x500C#16) = true)

theorem vicIntEnableRd : Statement .vicIntEnableRd := fun _ =>
  (by decide : opcodeTable.any (fun r => r.mnemonic == "VIC_INTENABLE_RD" && r.selects 0x4010#16) = true)

theorem vicIntEnableWr (v : Word) : Statement (.vicIntEnableWr v) := fun _ =>
  (by decide : opcodeTable.any (fun r => r.mnemonic == "VIC_INTENABLE_WR" && r.selects 0x5010#16) = true)

theorem vicIntEnClearRd : Statement .vicIntEnClearRd := fun _ =>
  (by decide : opcodeTable.any (fun r => r.mnemonic == "VIC_INTENCLEAR_RD" && r.selects 0x4014#16) = true)

theorem vicIntEnClearWr (v : Word) : Statement (.vicIntEnClearWr v) := fun _ =>
  (by decide : opcodeTable.any (fun r => r.mnemonic == "VIC_INTENCLEAR_WR" && r.selects 0x5014#16) = true)

theorem vicSoftIntRd : Statement .vicSoftIntRd := fun _ =>
  (by decide : opcodeTable.any (fun r => r.mnemonic == "VIC_SOFTINT_RD" && r.selects 0x4018#16) = true)

theorem vicSoftIntWr (v : Word) : Statement (.vicSoftIntWr v) := fun _ =>
  (by decide : opcodeTable.any (fun r => r.mnemonic == "VIC_SOFTINT_WR" && r.selects 0x5018#16) = true)

theorem vicSoftIntClearRd : Statement .vicSoftIntClearRd := fun _ =>
  (by decide : opcodeTable.any (fun r => r.mnemonic == "VIC_SOFTINTCLEAR_RD" && r.selects 0x401C#16) = true)

theorem vicSoftIntClearWr (v : Word) : Statement (.vicSoftIntClearWr v) := fun _ =>
  (by decide : opcodeTable.any (fun r => r.mnemonic == "VIC_SOFTINTCLEAR_WR" && r.selects 0x501C#16) = true)

theorem vicProtectionRd : Statement .vicProtectionRd := fun _ =>
  (by decide : opcodeTable.any (fun r => r.mnemonic == "VIC_PROTECTION_RD" && r.selects 0x4020#16) = true)

theorem vicProtectionWr (v : Word) : Statement (.vicProtectionWr v) := fun _ =>
  (by decide : opcodeTable.any (fun r => r.mnemonic == "VIC_PROTECTION_WR" && r.selects 0x5020#16) = true)

theorem vicVectAddrRd : Statement .vicVectAddrRd := fun _ =>
  (by decide : opcodeTable.any (fun r => r.mnemonic == "VIC_VECTADDR_RD" && r.selects 0x4030#16) = true)

theorem vicVectAddrWr (v : Word) : Statement (.vicVectAddrWr v) := fun _ =>
  (by decide : opcodeTable.any (fun r => r.mnemonic == "VIC_VECTADDR_WR" && r.selects 0x5030#16) = true)

theorem vicDefVectAddrRd : Statement .vicDefVectAddrRd := fun _ =>
  (by decide : opcodeTable.any (fun r => r.mnemonic == "VIC_DEFVECTADDR_RD" && r.selects 0x4034#16) = true)

theorem vicDefVectAddrWr (v : Word) : Statement (.vicDefVectAddrWr v) := fun _ =>
  (by decide : opcodeTable.any (fun r => r.mnemonic == "VIC_DEFVECTADDR_WR" && r.selects 0x5034#16) = true)

theorem vicVectAddrSlotRd (i : Nat) : Statement (.vicVectAddrSlotRd i) := by
  intro h
  have hi : i < 16 := by simpa [Instr.WellFormed, Instr.wellFormed] using h
  have all : ∀ n : Fin 16, opcodeTable.any (fun r => r.mnemonic == "VIC_VECTADDRn_RD"
      && r.selects (vicKey 0 (slotOffset 0x100 n))) = true := by decide
  exact all ⟨i, hi⟩

theorem vicVectAddrSlotWr (i : Nat) (v : Word) : Statement (.vicVectAddrSlotWr i v) := by
  intro h
  have hi : i < 16 := by simpa [Instr.WellFormed, Instr.wellFormed] using h
  have all : ∀ n : Fin 16, opcodeTable.any (fun r => r.mnemonic == "VIC_VECTADDRn_WR"
      && r.selects (vicKey 1 (slotOffset 0x100 n))) = true := by decide
  exact all ⟨i, hi⟩

theorem vicVectCntlSlotRd (i : Nat) : Statement (.vicVectCntlSlotRd i) := by
  intro h
  have hi : i < 16 := by simpa [Instr.WellFormed, Instr.wellFormed] using h
  have all : ∀ n : Fin 16, opcodeTable.any (fun r => r.mnemonic == "VIC_VECTCNTLn_RD"
      && r.selects (vicKey 0 (slotOffset 0x200 n))) = true := by decide
  exact all ⟨i, hi⟩

theorem vicVectCntlSlotWr (i : Nat) (v : Word) : Statement (.vicVectCntlSlotWr i v) := by
  intro h
  have hi : i < 16 := by simpa [Instr.WellFormed, Instr.wellFormed] using h
  have all : ∀ n : Fin 16, opcodeTable.any (fun r => r.mnemonic == "VIC_VECTCNTLn_WR"
      && r.selects (vicKey 1 (slotOffset 0x200 n))) = true := by decide
  exact all ⟨i, hi⟩

theorem vicHwId0Rd : Statement .vicHwId0Rd := fun _ =>
  (by decide : opcodeTable.any (fun r => r.mnemonic == "VIC_HWID0_RD" && r.selects 0x4FE0#16) = true)

theorem vicHwId1Rd : Statement .vicHwId1Rd := fun _ =>
  (by decide : opcodeTable.any (fun r => r.mnemonic == "VIC_HWID1_RD" && r.selects 0x4FE4#16) = true)

theorem vicHwId2Rd : Statement .vicHwId2Rd := fun _ =>
  (by decide : opcodeTable.any (fun r => r.mnemonic == "VIC_HWID2_RD" && r.selects 0x4FE8#16) = true)

theorem vicHwId3Rd : Statement .vicHwId3Rd := fun _ =>
  (by decide : opcodeTable.any (fun r => r.mnemonic == "VIC_HWID3_RD" && r.selects 0x4FEC#16) = true)

theorem vicHwId0Wr (v : Word) : Statement (.vicHwId0Wr v) := fun _ =>
  (by decide : opcodeTable.any (fun r => r.mnemonic == "VIC_HWID0_WR" && r.selects 0x5FE0#16) = true)

theorem vicHwId1Wr (v : Word) : Statement (.vicHwId1Wr v) := fun _ =>
  (by decide : opcodeTable.any (fun r => r.mnemonic == "VIC_HWID1_WR" && r.selects 0x5FE4#16) = true)

theorem vicHwId2Wr (v : Word) : Statement (.vicHwId2Wr v) := fun _ =>
  (by decide : opcodeTable.any (fun r => r.mnemonic == "VIC_HWID2_WR" && r.selects 0x5FE8#16) = true)

theorem vicHwId3Wr (v : Word) : Statement (.vicHwId3Wr v) := fun _ =>
  (by decide : opcodeTable.any (fun r => r.mnemonic == "VIC_HWID3_WR" && r.selects 0x5FEC#16) = true)

theorem vicAssert (src : Nat) : Statement (.vicAssert src) := by
  intro h
  have hi : src < 32 := by simpa [Instr.WellFormed, Instr.wellFormed] using h
  have all : ∀ n : Fin 32, opcodeTable.any (fun r => r.mnemonic == "VIC_ASSERT"
      && r.selects (portKey 0 n)) = true := by decide
  exact all ⟨src, hi⟩

theorem vicClear (src : Nat) : Statement (.vicClear src) := by
  intro h
  have hi : src < 32 := by simpa [Instr.WellFormed, Instr.wellFormed] using h
  have all : ∀ n : Fin 32, opcodeTable.any (fun r => r.mnemonic == "VIC_CLEAR"
      && r.selects (portKey 1 n)) = true := by decide
  exact all ⟨src, hi⟩

theorem vicIrq : Statement .vicIrq := fun _ =>
  (by decide : opcodeTable.any (fun r => r.mnemonic == "VIC_IRQ" && r.selects 0xA000#16) = true)

theorem vicFiq : Statement .vicFiq := fun _ =>
  (by decide : opcodeTable.any (fun r => r.mnemonic == "VIC_FIQ" && r.selects 0xB000#16) = true)

end Sys2Proof.Laws.EncodedKeyMatchesRow
end

