-- ==== Sys2Proof/Tests/Slice0.lean ====
section
/-! SUPPORT. The model's own tests.  Expected results are the spec's: keys written out from
spec/30_encoding.md R65 to R72, and the vectors T1 to T22 and V1 to V24 of spec/95_test_vectors.md.
The `witness_…` theorems show, for every statement that has hypotheses, states and operands that meet
them. -/

namespace Sys2Proof.Tests

open Sys2Proof Sys2Proof.Machine Sys2Proof.Certificates

/-! ### Helpers: small states, and what a step answered -/

/-- One Timer, and the operation `op` waiting at time `now`. -/
def withTimer (t : Timer) (now : Nat) (op : Operation) : State :=
  { State.reset with timers := [t], pending := [⟨0, now, op⟩] }

/-- One Vic, and the operation `op` waiting. -/
def withVic (v : Vic) (op : Operation) : State :=
  { State.reset with vics := [v], pending := [⟨0, 0, op⟩] }

/-- A state in which an operation of Timer `t` runs at time `now`. -/
def atTimer (t : Timer) (now : Nat) : State := { State.reset with timers := [t], now := now }

/-- A state in which an operation of Vic `v` runs. -/
def atVic (v : Vic) : State := { State.reset with vics := [v] }

/-- The next state, if there is one. -/
def next? : StepResult → Option State
  | .next s => some s
  | .fault _ => none
  | .refused _ => none

/-- The refusal, if there is one. -/
def refusal? : StepResult → Option Refusal
  | .next _ => none
  | .fault _ => none
  | .refused r => some r

/-- What a step reported. -/
def report (r : StepResult) : Option Response := (next? r).map (fun s => s.response)

/-- The Timer a step left. -/
def timer? (r : StepResult) : Option Timer := (next? r).bind (fun s => s.timers[0]?)

/-- The Vic a step left. -/
def vic? (r : StepResult) : Option Vic := (next? r).bind (fun s => s.vics[0]?)

/-- Whether a step ended the run. -/
def halts (r : StepResult) : Option Bool := (next? r).map (fun s => s.halted)

/-- A 32-bit Timer: value, load, enabled, mode, clock, fraction, last. -/
def t32 (value : Nat) (load : Option Nat) (en : Bool) (mode : Mode) (clk : ClkSel) (frac last : Nat) :
    Timer := ⟨.w32, load, value, en, mode, clk, frac, last⟩

/-- A 16-bit Timer. -/
def t16 (value : Nat) (load : Option Nat) (en : Bool) (mode : Mode) (clk : ClkSel) (frac last : Nat) :
    Timer := ⟨.w16, load, value, en, mode, clk, frac, last⟩

/-- A Vic with these lines, masks and default address, and no slot in use. -/
def vicOf (hw sw enable select defvect : Word) : Vic :=
  ⟨hw, sw, enable, select, defvect, Vector.replicate 16 newSlot⟩

/-- Replace slot `i` of a Vic. -/
def withSlot (v : Vic) (i : Nat) (sl : Slot) : Vic :=
  if h : i < 16 then { v with slots := v.slots.set i sl } else v

/-- Read of a Timer register. -/
def rdT (off : Nat) : Operation := .bus .timer .read .word off 0
/-- Write of a Timer register. -/
def wrT (off : Nat) (w : Word) : Operation := .bus .timer .write .word off w
/-- Read of a Vic register. -/
def rdV (off : Nat) : Operation := .bus .vic .read .word off 0
/-- Write of a Vic register. -/
def wrV (off : Nat) (w : Word) : Operation := .bus .vic .write .word off w

/-! ### Ill-formed terms are refused by the check (R36, R67) -/

theorem test_illformed_vectAddrSlotRd : (Instr.vicVectAddrSlotRd 16).wellFormed = false := by decide
theorem test_illformed_vectAddrSlotWr : (Instr.vicVectAddrSlotWr 16 0).wellFormed = false := by decide
theorem test_illformed_vectCntlSlotRd : (Instr.vicVectCntlSlotRd 16).wellFormed = false := by decide
theorem test_illformed_vectCntlSlotWr : (Instr.vicVectCntlSlotWr 16 0).wellFormed = false := by decide
theorem test_illformed_assert : (Instr.vicAssert 32).wellFormed = false := by decide
theorem test_illformed_clear : (Instr.vicClear 32).wellFormed = false := by decide
theorem test_wellformed_last_operands :
    [Instr.vicVectAddrSlotRd 15, .vicVectAddrSlotWr 15 0, .vicVectCntlSlotRd 15,
      .vicVectCntlSlotWr 15 0, .vicAssert 31, .vicClear 31].all Instr.wellFormed = true := by decide

/-! ### Decoding: every constructor, from a key written out field by field (R65: `cls` 2 bits, `z`,
`dir`, `off` 12 bits; class 10: `cls`, `pop` 2 bits, 7 zero bits, `src` 5 bits) -/

/-- Decode a key with this data word. -/
def dec (k : Key) (d : Word) : Decoded := decode ⟨k, d⟩

theorem test_decode_timer_reads :
    [dec 0b00_0_0_000000000000#16 9, dec 0b00_0_0_000000000100#16 9, dec 0b00_0_0_000000001000#16 9,
      dec 0b00_0_0_000000001100#16 9]
    = [.instr .tmrLoadRd, .instr .tmrValueRd, .instr .tmrCtrlRd, .instr .tmrClearRd] := by decide

theorem test_decode_timer_writes :
    [dec 0b00_0_1_000000000000#16 0x89ABCDEF, dec 0b00_0_1_000000000100#16 0x89ABCDEF,
      dec 0b00_0_1_000000001000#16 0x89ABCDEF, dec 0b00_0_1_000000001100#16 0x89ABCDEF]
    = [.instr (.tmrLoadWr 0x89ABCDEF), .instr (.tmrValueWr 0x89ABCDEF),
      .instr (.tmrCtrlWr 0x89ABCDEF), .instr (.tmrClearWr 0x89ABCDEF)] := by decide

theorem test_decode_status :
    [dec 0b01_0_0_000000000000#16 0, dec 0b01_0_1_000000000000#16 7, dec 0b01_0_0_000000000100#16 0,
      dec 0b01_0_1_000000000100#16 7, dec 0b01_0_0_000000001000#16 0, dec 0b01_0_1_000000001000#16 7]
    = [.instr .vicIrqStatusRd, .instr (.vicIrqStatusWr 7), .instr .vicFiqStatusRd,
      .instr (.vicFiqStatusWr 7), .instr .vicRawIntrRd, .instr (.vicRawIntrWr 7)] := by decide

theorem test_decode_routing_and_enable :
    [dec 0b01_0_0_000000001100#16 0, dec 0b01_0_1_000000001100#16 0xFFFFFFFF,
      dec 0b01_0_0_000000010000#16 0, dec 0b01_0_1_000000010000#16 0xFFFFFFFF,
      dec 0b01_0_0_000000010100#16 0, dec 0b01_0_1_000000010100#16 0xFFFFFFFF]
    = [.instr .vicIntSelectRd, .instr (.vicIntSelectWr 0xFFFFFFFF), .instr .vicIntEnableRd,
      .instr (.vicIntEnableWr 0xFFFFFFFF), .instr .vicIntEnClearRd,
      .instr (.vicIntEnClearWr 0xFFFFFFFF)] := by decide

theorem test_decode_software_and_protection :
    [dec 0b01_0_0_000000011000#16 0, dec 0b01_0_1_000000011000#16 5, dec 0b01_0_0_000000011100#16 0,
      dec 0b01_0_1_000000011100#16 5, dec 0b01_0_0_000000100000#16 0, dec 0b01_0_1_000000100000#16 5]
    = [.instr .vicSoftIntRd, .instr (.vicSoftIntWr 5), .instr .vicSoftIntClearRd,
      .instr (.vicSoftIntClearWr 5), .instr .vicProtectionRd, .instr (.vicProtectionWr 5)] := by decide

theorem test_decode_vector_addresses :
    [dec 0b01_0_0_000000110000#16 0, dec 0b01_0_1_000000110000#16 5, dec 0b01_0_0_000000110100#16 0,
      dec 0b01_0_1_000000110100#16 5]
    = [.instr .vicVectAddrRd, .instr (.vicVectAddrWr 5), .instr .vicDefVectAddrRd,
      .instr (.vicDefVectAddrWr 5)] := by decide

theorem test_decode_slots :
    [dec 0b01_0_0_000100_0000_00#16 0, dec 0b01_0_1_000100_0101_00#16 5,
      dec 0b01_0_0_001000_1010_00#16 0, dec 0b01_0_1_001000_1111_00#16 5]
    = [.instr (.vicVectAddrSlotRd 0), .instr (.vicVectAddrSlotWr 5 5),
      .instr (.vicVectCntlSlotRd 10), .instr (.vicVectCntlSlotWr 15 5)] := by decide

theorem test_decode_identification :
    [dec 0b01_0_0_111111100000#16 0, dec 0b01_0_0_111111100100#16 0, dec 0b01_0_0_111111101000#16 0,
      dec 0b01_0_0_111111101100#16 0, dec 0b01_0_1_111111100000#16 5, dec 0b01_0_1_111111100100#16 5,
      dec 0b01_0_1_111111101000#16 5, dec 0b01_0_1_111111101100#16 5]
    = [.instr .vicHwId0Rd, .instr .vicHwId1Rd, .instr .vicHwId2Rd, .instr .vicHwId3Rd,
      .instr (.vicHwId0Wr 5), .instr (.vicHwId1Wr 5), .instr (.vicHwId2Wr 5),
      .instr (.vicHwId3Wr 5)] := by decide

theorem test_decode_port :
    [dec 0b10_00_0000000_11111#16 0, dec 0b10_01_0000000_00001#16 0, dec 0b10_10_0000000_00000#16 0,
      dec 0b10_11_0000000_00000#16 0]
    = [.instr (.vicAssert 31), .instr (.vicClear 1), .instr .vicIrq, .instr .vicFiq] := by decide

/-- V24 and R73: a key of each reserved kind. -/
theorem test_decode_reserved :
    [dec 0xA001#16 0, dec 0xC000#16 0, dec 0x2000#16 0, dec 0x8020#16 0, dec 0x6000#16 0]
    = [.rejected .portBitsSet, .rejected .reservedClass, .rejected .zBitSet, .rejected .portBitsSet,
      .rejected .zBitSet] := by decide

/-- V22, T19: unmapped and misaligned offsets are bus accesses, not slot 0 or Load. -/
theorem test_decode_unmapped :
    [dec 0x4102#16 0, dec 0x4028#16 0, dec 0x4140#16 0, dec 0x4240#16 0, dec 0x4FF0#16 0,
      dec 0x0010#16 0, dec 0x0001#16 0, dec 0x1020#16 0]
    = [.unmapped .vic, .unmapped .vic, .unmapped .vic, .unmapped .vic, .unmapped .vic,
      .unmapped .timer, .unmapped .timer, .unmapped .timer] := by decide

/-! ### Timer vectors -/

theorem test_T1_scenario_A :
    report (step (withTimer (t32 0xFFFFFFFF (some 0xFFFFFFFF) true .freeRunning .k2 0 0) 500000000
      (rdT 0x04))) = some (.access (.okRead 0xFFFFFC17)) := by decide

theorem test_T3_fraction_carries :
    timer? (step (withTimer (t32 1000 (some 1000) true .freeRunning .k508 508000 1000) 2000 (rdT 0x04)))
      = some (t32 999 (some 1000) true .freeRunning .k508 16000 2000) := by decide

theorem test_T4_free_running_wraps :
    report (step (withTimer (t16 2 (some 2) true .freeRunning .k2 0 0) 2000000 (rdT 0x04)))
      = some (.access (.okRead 0xFFFE)) := by decide

theorem test_T6_disabled_does_not_decay :
    timer? (step (withTimer (t32 7 (some 7) false .freeRunning .k2 123 0) 1000000000000 (rdT 0x04)))
      = some (t32 7 (some 7) false .freeRunning .k2 123 1000000000000) := by decide

theorem test_T7_T8_periodic_step :
    [periodicStep (some 10) 3 5, periodicStep (some 10) 3 3, periodicStep (some 10) 0 1,
      periodicStep (some 10) 3 13, periodicStep (some 10) 3 30, periodicStep (some 10) 10 40,
      periodicStep (some 0xFFFF) 3 4]
    = [.ok 8, .ok 0, .ok 9, .ok 0, .ok 3, .ok 0, .ok 0xFFFE] := by decide

theorem test_T9_periodic_step_fatal :
    [periodicStep (some 0) 0 1, periodicStep none 0 1, periodicStep none 5 5, periodicStep (some 0) 0 0]
    = [.error .reloadZeroLoad, .error .reloadUnset, .ok 0, .ok 0] := by decide

theorem test_T10_load_write_sets_value :
    timer? (step (withTimer (t32 77 none false .freeRunning .k2 0 0) 0 (wrT 0x00 0x1234)))
      = some (t32 0x1234 (some 0x1234) false .freeRunning .k2 0 0) := by decide

theorem test_T11_load_write_masks :
    timer? (step (withTimer (t16 0 none false .freeRunning .k2 0 0) 0 (wrT 0x00 0xFFFF1234)))
      = some (t16 0x1234 (some 0x1234) false .freeRunning .k2 0 0) := by decide

theorem test_T12_load_read_unset :
    report (step (withTimer (t32 5 none false .freeRunning .k2 0 0) 0 (rdT 0x00)))
      = some (.access (.fatal .loadReadUnset)) := by decide

theorem test_load_read_while_enabled :
    report (step (withTimer (t32 3 (some 0x1234) true .periodic .k2 0 0) 500000 (rdT 0x00)))
      = some (.access (.okRead 0x1234)) := by decide

theorem test_T13_load_write_enabled :
    halts (step (withTimer (t32 3 (some 3) true .freeRunning .k2 0 0) 100 (wrT 0x00 5)))
      = some true := by decide

theorem test_T14_value_write :
    next? (exec (.tmrValueWr 5) (atTimer (t32 9 (some 9) true .freeRunning .k2 0 0) 0))
      = some { atTimer (t32 9 (some 9) true .freeRunning .k2 0 0) 0 with
          response := .access .invalidAccess } := by decide

theorem test_T15_control_read :
    report (step (withTimer (t32 9 (some 9) true .periodic .k508 0 0) 0 (rdT 0x08)))
      = some (.access (.okRead 0xC8)) := by decide

theorem test_T15a_control_read_zero :
    report (step (withTimer (t32 9 (some 9) false .freeRunning .k2 0 0) 0 (rdT 0x08)))
      = some (.access (.okRead 0)) := by decide

theorem test_T16_control_enables :
    timer? (step (withTimer (t32 100 (some 100) false .freeRunning .k2 123 0) 5 (wrT 0x08 0xC8)))
      = some (t32 100 (some 100) true .periodic .k508 0 5) := by decide

theorem test_T16b_control_disables :
    timer? (step (withTimer (t32 100 (some 100) true .freeRunning .k2 0 5) 5 (wrT 0x08 0xFFFFFF7F)))
      = some (t32 100 none false .periodic .k508 0 5) := by decide

theorem test_T18_clear_read :
    report (step (withTimer (t32 9 none false .freeRunning .k2 0 0) 7 (rdT 0x0C)))
      = some (.access .unimplemented) := by decide

theorem test_T18_clear_write :
    timer? (step (withTimer (t32 9 none true .freeRunning .k2 0 0) 500000 (wrT 0x0C 1)))
      = some (t32 8 none true .freeRunning .k2 0 500000) := by decide

theorem test_T20_precedence :
    report (step (withTimer (t32 0 none true .periodic .k2 0 0) 500000 (rdT 0x10)))
      = some (.access (.fatal .reloadUnset)) := by decide

theorem test_T21_clock_went_back :
    refusal? (step (withTimer (t32 9 none true .periodic .k2 0 1000) 999 (rdT 0x04)))
      = some .clockWentBack := by decide

theorem test_T22_halted :
    next? (step { withTimer (t32 9 none true .periodic .k2 0 0) 0 (rdT 0x04) with halted := true })
      = none := by decide

/-! ### Vic vectors -/

theorem test_V1_irq : report (step (withVic (vicOf 0x1 0 0x1 0 0) .irqLine)) = some (.level true) := by
  decide
theorem test_V1_fiq : report (step (withVic (vicOf 0x1 0 0x1 0 0) .fiqLine)) = some (.level false) := by
  decide
theorem test_V2_irqStatus :
    report (step (withVic (vicOf 0x3 0 0x3 0x2 0) (rdV 0x000))) = some (.access (.okRead 0x1)) := by decide
theorem test_V2_fiqStatus :
    report (step (withVic (vicOf 0x3 0 0x3 0x2 0) (rdV 0x004))) = some (.access (.okRead 0x2)) := by decide
theorem test_V2_fiq :
    report (step (withVic (vicOf 0x3 0 0x3 0x2 0) .fiqLine)) = some (.level true) := by decide
theorem test_V3_irq_not_enabled :
    report (step (withVic (vicOf 0x4 0 0 0 0) .irqLine)) = some (.level false) := by decide
theorem test_R95_rawIntr :
    report (step (withVic (vicOf 0x5 0x100 0 0 0) (rdV 0x008))) = some (.access (.okRead 0x105)) := by
  decide
theorem test_V4_softInt_write :
    vic? (step (withVic (vicOf 0 0x1 0x80000000 0 0) (wrV 0x018 0x80000006)))
      = some (vicOf 0 0x80000007 0x80000000 0 0) := by decide
theorem test_R106_softIntClear_write :
    vic? (step (withVic (vicOf 0x1 0x7 0x1 0 0) (wrV 0x01C 0x3))) = some (vicOf 0x1 0x4 0x1 0 0) := by
  decide
theorem test_V5a_clear :
    vic? (step (withVic (vicOf 0x80000001 0x1 0x1 0 0) (.clearLine 31))) = some (vicOf 0x1 0x1 0x1 0 0) := by
  decide
theorem test_R127_assert :
    vic? (step (withVic (vicOf 0x20 0 0 0 0) (.assertLine 3))) = some (vicOf 0x28 0 0 0 0) := by decide
theorem test_V6_intEnable_write :
    vic? (step (withVic (vicOf 0 0 0xF3 0 0) (wrV 0x010 0x0F))) = some (vicOf 0 0 0x0F 0 0) := by decide
theorem test_R99_intEnable_read :
    report (step (withVic (vicOf 1 2 0xF3 4 8) (rdV 0x010))) = some (.access (.okRead 0xF3)) := by decide
theorem test_R102_intEnClear_write :
    vic? (step (withVic (vicOf 0 0 0xF 0 0) (wrV 0x014 0x5))) = some (vicOf 0 0 0xA 0 0) := by decide
theorem test_R103_softInt_read :
    report (step (withVic (vicOf 1 2 4 8 16) (rdV 0x018))) = some (.access (.okRead 2)) := by decide
theorem test_V8a_intSelect_write :
    vic? (step (withVic (vicOf 1 2 4 0x8 16) (wrV 0x00C 0x80000001)))
      = some (vicOf 1 2 4 0x80000001 16) := by decide
theorem test_R97_intSelect_read :
    report (step (withVic (vicOf 1 2 4 8 16) (rdV 0x00C))) = some (.access (.okRead 8)) := by decide
theorem test_V9_wrong_direction :
    [wrV 0x000 1, wrV 0x004 1, wrV 0x008 1, rdV 0x014, rdV 0x01C, wrV 0xFE0 0, wrV 0xFE4 0, wrV 0xFE8 0,
      wrV 0xFEC 0].map (fun op => report (step (withVic newVic op)))
    = List.replicate 9 (some (.access .invalidAccess)) := by decide

/-- The slots of V10. -/
def vicV10 : Vic :=
  withSlot (withSlot (vicOf 0xA 0 0xA 0 0xD) 0 ⟨3, 0xA0, true⟩) 1 ⟨1, 0xB0, true⟩

theorem test_V10_lower_slot_wins :
    report (step (withVic vicV10 (rdV 0x030))) = some (.access (.okRead 0xA0)) := by decide
theorem test_V13_fiq_forces_default :
    report (step (withVic { vicV10 with select := 0x2 } (rdV 0x030))) = some (.access (.okRead 0xD)) := by
  decide
theorem test_V14_no_slot_matches :
    isrAddress (withSlot (vicOf 0x1 0 0x1 0 0x77) 0 ⟨0, 0x55, false⟩) = 0x77 := by decide
theorem test_V17_vectAddr_write :
    next? (exec (.vicVectAddrWr 0x55) (atVic vicV10))
      = some { atVic vicV10 with response := .access .okWrite } := by decide
theorem test_R112_defVectAddr_read :
    report (step (withVic (vicOf 1 2 4 8 16) (rdV 0x034))) = some (.access (.okRead 16)) := by decide
theorem test_R113_defVectAddr_write :
    vic? (step (withVic (vicOf 1 2 4 8 16) (wrV 0x034 0xFFFFFFFF)))
      = some (vicOf 1 2 4 8 0xFFFFFFFF) := by decide
theorem test_V18_slot_address_write :
    vic? (step (withVic (withSlot newVic 15 ⟨7, 0, true⟩) (wrV 0x13C 0x1234)))
      = some (withSlot newVic 15 ⟨7, 0x1234, true⟩) := by decide
theorem test_V18_slot_address_read :
    report (step (withVic (withSlot newVic 15 ⟨7, 0x1234, true⟩) (rdV 0x13C)))
      = some (.access (.okRead 0x1234)) := by decide
theorem test_R116_slot_control_read :
    report (step (withVic (withSlot newVic 2 ⟨7, 0x1234, true⟩) (rdV 0x208)))
      = some (.access (.okRead 0x27)) := by decide
theorem test_V15_slot_control_write :
    vic? (step (withVic (withSlot newVic 15 ⟨1, 0x44, false⟩) (wrV 0x23C 0xFF)))
      = some (withSlot newVic 15 ⟨31, 0x44, true⟩) := by decide
theorem test_V16_slot_control_write_disables :
    vic? (step (withVic (withSlot newVic 0 ⟨0, 0, true⟩) (wrV 0x200 0x1F)))
      = some (withSlot newVic 0 ⟨31, 0, false⟩) := by decide
theorem test_V19_protection_read :
    report (step (withVic newVic (rdV 0x020))) = some (.access (.stubRead 0)) := by decide
theorem test_V19_protection_write :
    report (step (withVic newVic (wrV 0x020 1))) = some (.access .stubWrite) := by decide
theorem test_V20_identification :
    [rdV 0xFE0, rdV 0xFE4, rdV 0xFE8, rdV 0xFEC].map (fun op => report (step (withVic newVic op)))
    = [some (.access (.okRead 0x90)), some (.access (.okRead 0x11)), some (.access (.okRead 0x04)),
      some (.access (.okRead 0x00))] := by decide
theorem test_V22_unmapped :
    report (step (withVic newVic (rdV 0x102))) = some (.access .unexpectedAddress) := by decide
theorem test_V23_no_key :
    report (step (withVic newVic (rdV 0x1000))) = some (.access .unexpectedAddress) := by decide

/-- R150. -/
theorem test_register_names :
    [registerName .vic 0x13C, registerName .vic 0x200, registerName .vic 0xFE8, registerName .vic 0x140,
      registerName .timer 0x01].map (fun n => n.map RegName.text)
    = [some "VectAddr[15]", some "VectCntl[0]", some "hardware ID", none, none] := by decide

/-- The operation placed by `withFetchWord` is the next to run, with the data word of bits 47:16. -/
theorem test_withFetchWord :
    timer? (step (State.reset.withFetchWord 48 0x1234_1000)) = some
      (t32 0x1234 (some 0x1234) false .freeRunning .k2 0 0) := by decide

/-! ### Witnesses: states and operands that meet the hypotheses of each statement

Where a statement ranges over next states, `next? (exec i s)` names the one there is. -/

/-- An enabled periodic Timer that wraps after four ticks. -/
def tRun : Timer := t32 3 (some 10) true .periodic .k2 0 0
/-- A disabled Timer with a load value and a fraction. -/
def tOff : Timer := t16 5 (some 7) false .freeRunning .k508 999999 10
/-- An enabled free-running Timer, at its largest count. -/
def tFree : Timer := t32 0xFFFFFFFF none true .freeRunning .k2 999999 0
/-- A Timer whose first tick wraps with no load value. -/
def tUnset : Timer := t32 0 none true .periodic .k2 0 0

/-- `s` with operation `op` of instance `n` waiting at time `now`. -/
def asked (s : State) (n now : Nat) (op : Operation) : State := { s with pending := [⟨n, now, op⟩] }

theorem witness_DecodeOfEncodeIsIdentity :
    (Instr.vicVectCntlSlotWr 15 0xFFFFFFFF).WellFormed ∧ (Instr.vicAssert 31).WellFormed
      ∧ (Instr.tmrLoadWr 0xFFFFFFFF).WellFormed := by decide

theorem witness_EncodeOfDecodeIsTheKey :
    decode ⟨0x523C#16, 0xFFFFFFFF⟩ = .instr (.vicVectCntlSlotWr 15 0xFFFFFFFF)
      ∧ decode ⟨0x413C#16, 0xFFFFFFFF⟩ = .instr (.vicVectAddrSlotRd 15)
      ∧ decode ⟨0x901F#16, 0xFFFFFFFF⟩ = .instr (.vicClear 31) := by decide

theorem witness_KeysDecodeByTheTable_matched :
    ∃ r ∈ opcodeTable, 0x523C#16 &&& r.mask = r.bits := by decide

theorem witness_KeysDecodeByTheTable_unmatched :
    (∀ r ∈ opcodeTable, 0xC000#16 &&& r.mask ≠ r.bits)
      ∧ (∀ r ∈ opcodeTable, 0x8020#16 &&& r.mask ≠ r.bits)
      ∧ (∀ r ∈ opcodeTable, 0xB001#16 &&& r.mask ≠ r.bits)
      ∧ (∀ r ∈ opcodeTable, 0x2000#16 &&& r.mask ≠ r.bits)
      ∧ (∀ r ∈ opcodeTable, 0x0010#16 &&& r.mask ≠ r.bits)
      ∧ (∀ r ∈ opcodeTable, 0x4140#16 &&& r.mask ≠ r.bits) := by
  refine ⟨?_, ?_, ?_, ?_, ?_, ?_⟩ <;> decide

theorem witness_KeysDecodeByTheTable_unmapped :
    (Operation.bus .timer .read .word 0x10 0).decode = .unmapped .timer
      ∧ halts (step (withTimer tRun 0 (rdT 0x10))) = some false
      ∧ (Operation.bus .vic .write .word 0x140 0).decode = .unmapped .vic
      ∧ halts (step (withVic newVic (wrV 0x140 0))) = some false := by decide

theorem witness_KeysDecodeByTheTable_rejected :
    (Operation.key 0xC000#16 0).decode = .rejected .reservedClass := by decide

theorem witness_ReservedKeysAreRefused_reserved :
    ReservedKey 0xC000#16 ∧ ReservedKey 0xFFFF#16 ∧ ReservedKey 0x2000#16 ∧ ReservedKey 0x7000#16
      ∧ ReservedKey 0x8020#16 ∧ ReservedKey 0x9800#16 ∧ ReservedKey 0xA001#16 ∧ ReservedKey 0xB010#16 := by
  unfold ReservedKey
  refine ⟨?_, ?_, ?_, ?_, ?_, ?_, ?_, ?_⟩ <;> decide

theorem witness_ReservedKeysAreRefused_others :
    ¬ ReservedKey 0x801F#16 ∧ ¬ ReservedKey 0xB000#16 ∧ ¬ ReservedKey 0x1FFF#16
      ∧ ¬ ReservedKey 0x5FFF#16 := by
  unfold ReservedKey
  decide

theorem witness_BusAccessesHaveTheirKeys : 0xFFF ≤ 0xFFF ∧ 0xFFF < 0x1000 := by decide

theorem witness_PortCallsHaveTheirKeys :
    31 < 32 ∧ 32 ≤ 32
      ∧ (asked State.reset 0 0 (.assertLine 32)).pending = [⟨0, 0, .assertLine 32⟩]
      ∧ (asked State.reset 0 0 (.clearLine 32)).pending = [⟨0, 0, .clearLine 32⟩] := by decide

theorem witness_SubWordAccessesAreRefused :
    AccessSize.byte ≠ .word ∧ AccessSize.halfword ≠ .word
      ∧ (asked State.reset 0 0 (.bus .timer .read .byte 0 0)).pending
        = [⟨0, 0, .bus .timer .read .byte 0 0⟩] := by decide

theorem witness_StepRunsTheDecodedOperation :
    (withVic newVic .irqLine).pending = [⟨0, 0, .irqLine⟩] ∧ Operation.irqLine.decode = .instr .vicIrq
      ∧ State.reset.pending = [] := by decide

theorem witness_LazyUpdateFollowsItsFormula :
    (tOff.last ≤ 10 ∧ tOff.enabled = false)
      ∧ (tFree.last ≤ 1 ∧ tFree.enabled = true ∧ tFree.mode = .freeRunning)
      ∧ (tRun.last ≤ 2000000 ∧ tRun.enabled = true ∧ tRun.mode = .periodic
        ∧ periodicStep tRun.load tRun.value (ticksAt 2000000 tRun) = .ok 9)
      ∧ (tUnset.last ≤ 500000 ∧ tUnset.enabled = true ∧ tUnset.mode = .periodic
        ∧ periodicStep tUnset.load tUnset.value (ticksAt 500000 tUnset) = .error .reloadUnset) := by decide

/-- Each branch at the edge of its range: `ticks = value`, `value + 1`, an excess of 1, of `l` and of
`l + 1`. -/
theorem witness_PeriodicStepFollowsItsFormula :
    (3 ≤ 3) ∧ (3 < 4) ∧ (4 = 3 + 1 ∧ 0 < 1 ∧ 1 ≤ 10) ∧ (13 = 3 + 10 ∧ 0 < 10 ∧ 10 ≤ 10)
      ∧ (14 = 3 + 11 ∧ 10 < 11) := by decide

theorem witness_LazyUpdateIsSamplingIndependent :
    tRun.last ≤ 1999999 ∧ 1999999 ≤ 2000000 ∧ 0 < 1 := by decide

theorem witness_SamplingDoesNotChangeLaterAccesses :
    TimerSample .tmrValueRd ∧ TimerSample .tmrLoadRd ∧ TimerSample (.tmrClearWr 1)
      ∧ (Instr.tmrCtrlWr 0).device = .timer
      ∧ halts (exec .tmrValueRd (atTimer tRun 2000000)) = some false
      ∧ halts (exec .tmrLoadRd (atTimer tRun 2000000)) = some false
      ∧ (atTimer tRun 2000000).now ≤ 2000000 := by
  unfold TimerSample
  refine ⟨by simp, by simp, by simp, ?_⟩
  decide

theorem witness_EnablingClearsTheFraction :
    (atTimer tOff 10).halted = false ∧ (atTimer tOff 10).timers[(atTimer tOff 10).inst]? = some tOff
      ∧ tOff.last ≤ (atTimer tOff 10).now ∧ tOff.enabled = false
      ∧ (0x80 : Word).getLsbD 7 = true ∧ (0xC0 : Word).getLsbD 7 = true
      ∧ periodicStep tOff.load tOff.value (3000000 * clockKhz .k2 / 1000000) = .ok 6 := by decide

theorem witness_DecrementIsWithinOneTick :
    tFree.enabled = true ∧ tFree.mode = .freeRunning ∧ tFree.clksel = .k2 ∧ tFree.frac < 1000000
      ∧ (lazyUpdate (tFree.last + 1) tFree).isOk = true
      ∧ (lazyUpdate (tFree.last + 3 * 500000) tFree).isOk = true := by decide

/-- A Timer, disabled, with its load value. -/
def readyOff : State := atTimer tOff 10
/-- A running Timer about to wrap. -/
def readyRun : State := atTimer tRun 2000000

theorem ready_off : TimerReady readyOff tOff { tOff with last := 10 } := by
  unfold TimerReady
  decide

theorem ready_run : TimerReady readyRun tRun (t32 9 (some 10) true .periodic .k2 0 2000000) := by
  unfold TimerReady
  decide

theorem ready_unset : TimerReady (atTimer tUnset 0) tUnset tUnset := by
  unfold TimerReady
  decide

theorem witness_LoadReadReturnsTheLoadOrIsFatal :
    (TimerReady readyOff tOff { tOff with last := 10 } ∧ ({ tOff with last := 10 } : Timer).load = some 7)
      ∧ (TimerReady (atTimer tUnset 0) tUnset tUnset ∧ tUnset.load = none) :=
  ⟨⟨ready_off, rfl⟩, ready_unset, rfl⟩

theorem witness_LoadWriteSetsLoadAndValue :
    (TimerReady readyOff tOff { tOff with last := 10 } ∧ ({ tOff with last := 10 } : Timer).enabled = false)
      ∧ (TimerReady (atTimer tUnset 0) tUnset tUnset ∧ tUnset.enabled = true) :=
  ⟨⟨ready_off, rfl⟩, ready_unset, rfl⟩

theorem witness_ValueReadReturnsTheCount :
    TimerReady readyRun tRun (t32 9 (some 10) true .periodic .k2 0 2000000) := ready_run

theorem witness_ValueWriteIsInvalidAccess :
    TimerReady readyRun tRun (t32 9 (some 10) true .periodic .k2 0 2000000) := ready_run

theorem witness_ControlReadPacksTheFields :
    TimerReady readyRun tRun (t32 9 (some 10) true .periodic .k2 0 2000000) := ready_run

/-- The three cases of a Control write: enabling, disabling, and no transition. -/
theorem witness_ControlWriteSetsTheFields :
    (TimerReady readyOff tOff { tOff with last := 10 } ∧ tOff.enabled = false
        ∧ (0x80 : Word).getLsbD 7 = true)
      ∧ (TimerReady readyRun tRun (t32 9 (some 10) true .periodic .k2 0 2000000)
        ∧ (0x7F : Word).getLsbD 7 = false)
      ∧ (TimerReady (atTimer tUnset 0) tUnset tUnset ∧ tUnset.enabled = (0xC8 : Word).getLsbD 7) :=
  ⟨⟨ready_off, by decide⟩, ⟨ready_run, by decide⟩, ready_unset, by decide⟩

theorem witness_ClearIsUnimplemented :
    TimerReady readyRun tRun (t32 9 (some 10) true .periodic .k2 0 2000000) := ready_run

/-- Both outcomes of the lazy update, at a misaligned offset, the first unmapped one and one above
0xFFF. -/
theorem witness_UnmappedTimerOffsetsAreUnexpected :
    ¬ TimerOffset 0x01 ∧ ¬ TimerOffset 0x10 ∧ ¬ TimerOffset 0x1000
      ∧ lazyUpdate 0 tUnset = .ok tUnset ∧ lazyUpdate 500000 tUnset = .error .reloadUnset
      ∧ (withTimer tUnset 500000 (rdT 0x10)).timers[0]? = some tUnset ∧ tUnset.last ≤ 0 := by
  unfold TimerOffset
  decide

theorem witness_NoTimerStepWhenTheClockGoesBack :
    (Instr.tmrLoadRd).device = .timer ∧ (atTimer tOff 9).timers[(atTimer tOff 9).inst]? = some tOff
      ∧ (atTimer tOff 9).now < tOff.last := by decide

theorem witness_NoStepOnceHalted :
    (Instr.vicIrq).WellFormed ∧ ({ State.reset with halted := true } : State).halted = true := by decide

theorem witness_FatalOutcomesAreExactlyThese :
    (Instr.tmrLoadRd).device = .timer ∧ (atTimer tUnset 500000).halted = false
      ∧ (atTimer tUnset 500000).timers[(atTimer tUnset 500000).inst]? = some tUnset
      ∧ tUnset.last ≤ (atTimer tUnset 500000).now
      ∧ (Instr.vicIrq).device = .vic ∧ halts (exec .vicIrq (atVic newVic)) = some false := by decide

/-- A Vic with lines and slots in use. -/
def vBusy : Vic :=
  withSlot (withSlot (vicOf 0x80000009 0x2 0xFFFFFFFF 0x80000000 0xD) 0 ⟨5, 0xA0, true⟩) 15 ⟨3, 0xB0, true⟩

theorem ready_busy : VicReady (atVic vBusy) vBusy := by
  unfold VicReady
  decide

theorem witness_StatusReadsShowTheLines : VicReady (atVic vBusy) vBusy := ready_busy
theorem witness_OutputLinesFollowTheLines : VicReady (atVic vBusy) vBusy := ready_busy
theorem witness_WrongDirectionIsInvalidAccess :
    VicReady (atVic vBusy) vBusy ∧ Instr.vicHwId3Wr 1 ∈
      [Instr.vicIrqStatusWr 1, .vicFiqStatusWr 1, .vicRawIntrWr 1, .vicIntEnClearRd,
        .vicSoftIntClearRd, .vicHwId0Wr 1, .vicHwId1Wr 1, .vicHwId2Wr 1, .vicHwId3Wr 1] :=
  ⟨ready_busy, by decide⟩
theorem witness_FieldReadsReturnTheField : VicReady (atVic vBusy) vBusy := ready_busy
theorem witness_FieldWritesReplaceTheField : VicReady (atVic vBusy) vBusy := ready_busy
theorem witness_IntEnableWriteReplacesTheMask : VicReady (atVic vBusy) vBusy := ready_busy
theorem witness_SetAndClearWritesTouchTheirLines : VicReady (atVic vBusy) vBusy := ready_busy
theorem witness_ProtectionIsAStub : VicReady (atVic vBusy) vBusy := ready_busy
theorem witness_VectAddrReadsResolveAndWritesDoNothing : VicReady (atVic vBusy) vBusy := ready_busy

/-- An FIQ pending; nothing pending; the last slot the lowest that matches; no slot that matches. -/
theorem witness_ResolutionTakesTheLowestMatchingSlot :
    fiqBits vBusy ≠ 0 ∧ irqBits newVic = 0
      ∧ (fiqBits { vBusy with select := 0 } = 0 ∧ irqBits { vBusy with select := 0 } ≠ 0
        ∧ vBusy.slots[15].en = true
        ∧ (irqBits { vBusy with select := 0 }).getLsbD vBusy.slots[15].src.toNat = true
        ∧ ∀ j : Fin 15, slotMatches (irqBits { vBusy with select := 0 }) vBusy.slots[j.val] = false)
      ∧ (fiqBits (vicOf 1 0 1 0 0) = 0 ∧ irqBits (vicOf 1 0 1 0 0) ≠ 0
        ∧ ∀ j : Fin 16, (vicOf 1 0 1 0 0).slots[j.val].en = false) := by decide

theorem witness_SlotReadsReturnTheSlot : VicReady (atVic vBusy) vBusy ∧ 0 < 16 ∧ 15 < 16 :=
  ⟨ready_busy, by decide⟩
theorem witness_SlotAddressWriteSetsTheAddress : VicReady (atVic vBusy) vBusy ∧ 0 < 16 ∧ 15 < 16 :=
  ⟨ready_busy, by decide⟩
theorem witness_SlotControlWriteSetsEnableAndSource : VicReady (atVic vBusy) vBusy ∧ 0 < 16 ∧ 15 < 16 :=
  ⟨ready_busy, by decide⟩
theorem witness_IdentificationWordsAreConstant : VicReady (atVic vBusy) vBusy := ready_busy
theorem witness_PortCallsEditOneHardwareLine :
    VicReady (atVic vBusy) vBusy ∧ 0 < 32 ∧ 31 < 32 ∧ 32 ≤ 32 := ⟨ready_busy, by decide⟩

theorem witness_UnmappedVicOffsetsAreUnexpected :
    ¬ VicOffset 0x140 ∧ ¬ VicOffset 0x102 ∧ ¬ VicOffset 0x038 ∧ ¬ VicOffset 0xFF0 ∧ ¬ VicOffset 0x1000
      ∧ (withVic vBusy (rdV 0x140)).halted = false ∧ (withVic vBusy (rdV 0x140)).vics[0]? = some vBusy := by
  unfold VicOffset
  refine ⟨?_, ?_, ?_, ?_, ?_, by decide⟩ <;>
    (rintro (h | ⟨i, hi, h⟩ | ⟨i, hi, h⟩ | h) <;> first | omega | simp at h)

theorem witness_RoutingLawsHold :
    fiqLine vicV10 = false ∧ vicV10.slots[0].en = true ∧ vicV10.slots[1].en = true
      ∧ vicV10.slots[0].src ≠ vicV10.slots[1].src
      ∧ (irqBits vicV10).getLsbD vicV10.slots[0].src.toNat = true
      ∧ (irqBits vicV10).getLsbD vicV10.slots[1].src.toNat = true
      ∧ (fiqLine newVic = false ∧ irqLine newVic = false) ∧ fiqLine vBusy = true := by decide

/-- One operation that changes each field, and what it changes. -/
theorem witness_EachVicFieldHasItsOwnWriters :
    (vic? (exec (.vicAssert 31) (atVic newVic))).map (fun v => v.hw) = some 0x80000000
      ∧ (vic? (exec (.vicClear 31) (atVic vBusy))).map (fun v => v.hw) = some 0x9
      ∧ (vic? (exec (.vicSoftIntWr 4) (atVic vBusy))).map (fun v => v.sw) = some 0x6
      ∧ (vic? (exec (.vicIntEnClearWr 1) (atVic vBusy))).map (fun v => v.enable) = some 0xFFFFFFFE
      ∧ (vic? (exec (.vicIntSelectWr 1) (atVic vBusy))).map (fun v => v.select) = some 1
      ∧ (vic? (exec (.vicDefVectAddrWr 1) (atVic vBusy))).map (fun v => v.defvect) = some 1
      ∧ (vic? (exec (.vicVectCntlSlotWr 15 0) (atVic vBusy))).map (fun v => v.slots[15])
        = some ⟨0, 0xB0, false⟩ := by decide

theorem witness_VicOperationsAreIdempotentAndReadsPure :
    ((Instr.vicSoftIntWr 4).device = .vic
        ∧ (next? (exec (.vicSoftIntWr 4) (atVic vBusy))).isSome = true)
      ∧ ((Instr.vicVectAddrRd).device = .vic ∧ (encode .vicVectAddrRd).key.getLsbD 15 = false
        ∧ (encode .vicVectAddrRd).key.getLsbD 12 = false
        ∧ (next? (exec .vicVectAddrRd (atVic vBusy))).isSome = true) := by decide

theorem witness_TimerReadsAtOneTimeAreIdempotent :
    (Instr.tmrValueRd).device = .timer ∧ (encode .tmrValueRd).key.getLsbD 12 = false
      ∧ halts (exec .tmrValueRd readyRun) = some false := by decide

theorem witness_WrittenWordsReadBack :
    VicReady (atVic vBusy) vBusy ∧ 15 < 16
      ∧ (next? (exec (.vicVectCntlSlotWr 15 0xFF) (atVic vBusy))).isSome = true
      ∧ halts (exec (.tmrCtrlWr 0xFF) readyOff) = some false
      ∧ readyOff.timers[readyOff.inst]? = some tOff
      ∧ halts (exec (.tmrLoadWr 0xFFFFFFFF) readyOff) = some false := ⟨ready_busy, by decide⟩

theorem witness_OperationsTouchOnlyTheirInstance :
    (next? (exec .tmrValueRd readyRun)).isSome = true
      ∧ (next? (exec (.vicSoftIntWr 4) (atVic vBusy))).isSome = true ∧ 1 ≠ readyRun.inst := by decide

/-- Two Timers, and a Timer and a Vic of the same index. -/
theorem witness_OperationsOnDifferentInstancesCommute :
    (0 ≠ 1 ∧ halts (exec (.tmrCtrlWr 0x80) { State.reset with inst := 0, now := 5 }) = some false
        ∧ halts (exec (.tmrLoadWr 9) { State.reset with inst := 1, now := 3 }) = some false)
      ∧ ((Instr.tmrValueRd).device ≠ (Instr.vicAssert 0).device
        ∧ halts (exec .tmrValueRd { State.reset with inst := 0, now := 5 }) = some false
        ∧ halts (exec (.vicAssert 0) { State.reset with inst := 0, now := 0 }) = some false) := by decide

theorem witness_RecoverableOutcomesChangeNothing :
    report (exec (.tmrValueWr 1) readyRun) = some (.access .invalidAccess)
      ∧ report (exec .vicProtectionRd (atVic vBusy)) = some (.access (.stubRead 0))
      ∧ isRecoverable .invalidAccess = true ∧ isRecoverable (.stubRead 0) = true := by decide

theorem witness_OnlyControlWritesChangeTheSettings :
    halts (exec (.tmrCtrlWr 0x48) readyOff) = some false ∧ readyOff.timers[0]? = some tOff
      ∧ timer? (exec (.tmrCtrlWr 0x48) readyOff) = some { tOff with mode := .periodic, clksel := .k508 } := by
  decide

/-- A load value appears, and one disappears. -/
theorem witness_LoadValueComesAndGoes :
    (readyOff.timers[0]? = some tOff ∧ halts (exec (.tmrLoadWr 9) readyOff) = some false
        ∧ (timer? (exec (.tmrLoadWr 9) readyOff)).map (fun t => t.load) = some (some 9))
      ∧ (readyRun.timers[0]? = some tRun ∧ halts (exec (.tmrCtrlWr 0) readyRun) = some false
        ∧ (timer? (exec (.tmrCtrlWr 0) readyRun)).map (fun t => t.load) = some none) := by decide

theorem witness_InstancesKeepTheirShape :
    (next? (step (withTimer tRun 2000000 (rdT 0x04)))).isSome = true := by decide

theorem witness_StepKeepsTheTimerRanges :
    (withTimer tRun 2000000 (rdT 0x04)).Sound
      ∧ (next? (step (withTimer tRun 2000000 (rdT 0x04)))).isSome = true := by decide

/-- The largest draws there are. -/
theorem witness_ConstructionHasTheTimerRanges :
    Platform.wf ⟨[⟨.w16, 0xFFFF, .periodic, .k508⟩, ⟨.w32, 0xFFFFFFFF, .freeRunning, .k2⟩], 4, 7⟩ = true := by
  decide

/-- A request that meets the duties and one that does not. -/
theorem witness_StepsExactlyWhenTheDutiesAreMet :
    (withTimer tOff 10 (rdT 0x04)).pending = [⟨0, 10, rdT 0x04⟩]
      ∧ dutiesMet (withTimer tOff 10 (rdT 0x04)) ⟨0, 10, rdT 0x04⟩ = true
      ∧ (withTimer tOff 9 (rdT 0x04)).pending = [⟨0, 9, rdT 0x04⟩]
      ∧ dutiesMet (withTimer tOff 9 (rdT 0x04)) ⟨0, 9, rdT 0x04⟩ = false := by decide

theorem witness_TimersAreConstructedDisabled :
    Config.platform.timers[1]? = some ⟨.w16, 0, .freeRunning, .k2⟩ := by decide

theorem witness_VicsAreConstructedZero : 1 < Config.platform.vics ∧ 15 < 16 := by decide

/-- Two states that differ in the fraction and the update time of a disabled Timer, and both step. -/
theorem witness_FractionAndTimestampOfDisabledTimersAreUnobservable :
    List.Forall₂ SameButUnobservable [tOff] [{ tOff with frac := 1, last := 3 }]
      ∧ (next? (step (withTimer tOff 10 (wrT 0x08 0x80)))).isSome = true
      ∧ (next? (step (withTimer { tOff with frac := 1, last := 3 } 10 (wrT 0x08 0x80)))).isSome = true
      ∧ withTimer { tOff with frac := 1, last := 3 } 10 (wrT 0x08 0x80)
        = { withTimer tOff 10 (wrT 0x08 0x80) with timers := [{ tOff with frac := 1, last := 3 }] } :=
  ⟨.cons (.inr ⟨rfl, rfl⟩) .nil, by decide⟩

theorem witness_NameQueriesChangeNothing :
    (asked State.reset 0 0 (.nameQuery .vic 0x13C)).pending = [⟨0, 0, .nameQuery .vic 0x13C⟩]
      ∧ (asked State.reset 0 0 (.nameQuery .vic 0x13C)).halted = false ∧ 15 < 16 := by decide

end Sys2Proof.Tests
end

section
/-! PROOFS. The Timer's lazy update and Value read, in the numbers the statements write out
(spec/40_timer.md R78, R82). -/

namespace Sys2Proof.Proofs

open Sys2Proof Sys2Proof.Machine Sys2Proof.Certificates

/-! ### The countdown in the statements' numbers -/

/-- The Timer's clock in kHz, as the statements write it (R25). -/
theorem clockKhz_eq_ite (c : ClkSel) : clockKhz c = if c = .k2 then 2 else 508 := by
  cases c <;> rfl

/-- The modulus of a counter, as the statements write it (R6). -/
theorem two_pow_widthBits (w : Width) : 2 ^ widthBits w = counterSize w := by
  cases w <;> rfl

theorem microticks_div (now : Nat) (t : Timer) :
    microticks now t / microticksPerTick = ticksAt now t := by
  rw [microticks, clockKhz_eq_ite, microticksPerTick, ticksAt]

theorem microticks_mod (now : Nat) (t : Timer) :
    microticks now t % microticksPerTick = remainderAt now t := by
  rw [microticks, clockKhz_eq_ite, microticksPerTick, remainderAt]

theorem freeRunningStep_eq (w : Width) (value ticks : Nat) :
    freeRunningStep w value ticks = (((value : Int) - ticks) % (counterSize w : Int)).toNat := by
  rw [freeRunningStep, two_pow_widthBits]

theorem countDown_freeRunning {t : Timer} (h : t.mode = .freeRunning) (ticks : Nat) :
    countDown t ticks = .ok (freeRunningStep t.bits t.value ticks) := by
  simp only [countDown, h]

theorem countDown_periodic {t : Timer} (h : t.mode = .periodic) (ticks : Nat) :
    countDown t ticks = periodicStep t.load t.value ticks := by
  simp only [countDown, h]

/-! ### The lazy update in the statements' numbers -/

/-- `lazyUpdate_enabled` with the ticks and the remainder of the statements. -/
theorem lazyUpdate_of_countDown_ok {now x : Nat} {t : Timer} (h : t.enabled = true)
    (hx : countDown t (ticksAt now t) = .ok x) :
    lazyUpdate now t = .ok { t with value := x, frac := remainderAt now t, last := now } := by
  rw [← microticks_div] at hx
  rw [lazyUpdate_enabled h hx, microticks_mod]

/-- `lazyUpdate_error` with the ticks of the statements. -/
theorem lazyUpdate_of_countDown_error {now : Nat} {t : Timer} {kind : FatalKind}
    (h : t.enabled = true) (hk : countDown t (ticksAt now t) = .error kind) :
    lazyUpdate now t = .error kind :=
  lazyUpdate_error.mpr ⟨h, by rwa [microticks_div]⟩

/-- Settles O10, by the Timer's mode: the free-running countdown always succeeds, and the periodic
one has the outcome of the periodic step. -/
theorem lazyUpdateFollowsItsFormula : Obligations.LazyUpdateFollowsItsFormula := by
  intro now t _
  refine ⟨lazyUpdate_disabled, fun he hm => ?freeRunning, fun he hm => ⟨fun x hx => ?ok,
    fun kind hk => ?fatal⟩⟩
  case freeRunning =>
    rw [← freeRunningStep_eq]
    exact lazyUpdate_of_countDown_ok he (countDown_freeRunning hm _)
  case ok => exact lazyUpdate_of_countDown_ok he ((countDown_periodic hm _).trans hx)
  case fatal => exact lazyUpdate_of_countDown_error he ((countDown_periodic hm _).trans hk)

/-! ### Timer accesses that reach their register's rule -/

/-- A Timer access that reaches a rule that is not fatal leaves the rule's Timer and answer, and
changes nothing else (R77). -/
theorem timerAccess_of_ready {rule : Timer → Except FatalKind (Timer × AccessOutcome)} {s : State}
    {t u w : Timer} {o : AccessOutcome} (h : TimerReady s t u) (hw : rule u = .ok (w, o)) :
    timerAccess rule s = .next (afterTimer s w o) := by
  obtain ⟨hrun, ht, hl, hu⟩ := h
  exact timerAccess_ok hrun ht hl hu hw

/-- A Value read's key matches no row before the Value read's own, and a read ignores the data lane
(R70). -/
theorem decode_valueRead (d : Word) : decode ⟨0x0004#16, d⟩ = .instr .tmrValueRd := by
  simp [decode, opcodeTable, timerRows, OpcodeRow.selects]

/-- The Value read is the Timer access that leaves the updated Timer and answers its count (R82). -/
theorem exec_tmrValueRd (s : State) :
    exec .tmrValueRd s = timerAccess (fun u => .ok (u, .okRead (BitVec.ofNat 32 u.value))) s := rfl

/-- Settles O18: a ready Value read leaves the Timer as the lazy update left it. -/
theorem valueReadReturnsTheCount : Obligations.ValueReadReturnsTheCount := by
  refine ⟨decode_valueRead, fun s t u hready => ?_⟩
  rw [exec_tmrValueRd]
  exact timerAccess_of_ready hready rfl

end Sys2Proof.Proofs
end

section
/-! PROOFS. The Vic's registers, output lines and vector resolution (spec/41_vic.md R91 to R116,
R122 to R125, R129, R130). -/

namespace Sys2Proof.Proofs

open Sys2Proof Sys2Proof.Machine Sys2Proof.Certificates

/-! ### Bits of a word -/

theorem word_ne_zero_iff (x : Word) : x ≠ 0 ↔ ∃ n, n < 32 ∧ x.getLsbD n = true := by
  constructor
  · intro hx
    by_contra hnone
    refine hx (BitVec.eq_of_getLsbD_eq fun n hn => ?_)
    simpa [hn] using fun h => hnone ⟨n, hn, h⟩
  · rintro ⟨n, -, hbit⟩ rfl
    simp at hbit

/-- Clearing the lines of a word, at every bit, those above the word included. -/
theorem getLsbD_and_not (x w : Word) (n : Nat) :
    (x &&& ~~~w).getLsbD n = (x.getLsbD n && !w.getLsbD n) := by
  by_cases hn : n < 32
  · simp [hn]
  · simp [BitVec.getLsbD_of_ge x n (Nat.le_of_not_lt hn)]

/-! ### Keys and the rows they match (R68, R69) -/

/-- No key matches two rows: where both masks are 1, the bits of two rows differ (R68). -/
theorem opcodeTable_disjoint :
    opcodeTable.Pairwise fun r r' => r.bits &&& r'.mask ≠ r'.bits &&& r.mask := by decide

/-- A key decodes by the row it matches, since no earlier row matches it (R68). -/
theorem decode_of_row {r : OpcodeRow} (hr : r ∈ opcodeTable) {k : Key}
    (hk : k &&& r.mask = r.bits) (d : Word) : decode ⟨k, d⟩ = .instr (r.build k d) := by
  obtain ⟨n, hn, rfl⟩ := List.getElem_of_mem hr
  have hfind : opcodeTable.find? (fun r => r.selects k) = some opcodeTable[n] := by
    refine List.find?_eq_some_iff_getElem.mpr ⟨by simpa [OpcodeRow.selects] using hk, n, hn, rfl,
      fun j hj => ?_⟩
    have hdiff := List.pairwise_iff_getElem.mp opcodeTable_disjoint j n (hj.trans hn) hn hj
    suffices k &&& opcodeTable[j].mask ≠ opcodeTable[j].bits by simpa [OpcodeRow.selects] using this
    intro hkj
    rw [← hk, ← hkj] at hdiff
    exact hdiff (by ac_rfl)
  simp [decode, hfind]

/-- A slot's key has the bits of its row outside bits 5:2, and the slot's index in them (R41, R69). -/
theorem slotKey_fields : ∀ base ∈ [0x4100, 0x5100, 0x4200, 0x5200], ∀ i : Fin 16,
    BitVec.ofNat 16 (base + 4 * i) &&& 0xFFC3#16 = BitVec.ofNat 16 base
      ∧ keySlot (BitVec.ofNat 16 (base + 4 * i)) = i := by decide

theorem decode_slotRow {m : String} {base i : Nat} {build : Nat → Word → Instr}
    (hr : ⟨m, BitVec.ofNat 16 base, 0xFFC3#16, fun k d => build (keySlot k) d⟩ ∈ opcodeTable)
    (hbase : base ∈ [0x4100, 0x5100, 0x4200, 0x5200]) (hi : i < 16) (d : Word) :
    decode ⟨BitVec.ofNat 16 (base + 4 * i), d⟩ = .instr (build i d) := by
  obtain ⟨hbits, hslot⟩ := slotKey_fields base hbase ⟨i, hi⟩
  exact (decode_of_row hr hbits d).trans (congrArg (fun n => Decoded.instr (build n d)) hslot)

/-! ### Vector resolution (R109) -/

theorem slotMatches_iff (lines : Word) (sl : Slot) :
    slotMatches lines sl = true ↔ sl.en = true ∧ lines.getLsbD sl.src.toNat = true := by
  simp [slotMatches]

theorem isrAddress_of_fiq_or_no_irq {v : Vic} (h : fiqBits v ≠ 0 ∨ irqBits v = 0) :
    isrAddress v = v.defvect := if_pos h

/-- With no FIQ and some IRQ pending, the slots are scanned from slot 0. -/
theorem isrAddress_of_irq_only {v : Vic} (hfiq : fiqBits v = 0) (hirq : irqBits v ≠ 0) :
    isrAddress v
      = ((v.slots.toList.find? (slotMatches (irqBits v))).map Slot.addr).getD v.defvect := by
  rw [isrAddress, if_neg (not_or.mpr ⟨not_not.mpr hfiq, hirq⟩)]
  cases v.slots.toList.find? (slotMatches (irqBits v)) <;> rfl

theorem find_slot_eq_some {p : Slot → Bool} {slots : Vector Slot 16} {i : Nat} (hi : i < 16)
    (hp : p slots[i] = true) (hbelow : ∀ (j : Nat) (hj : j < i), ¬ p slots[j] = true) :
    slots.toList.find? p = some slots[i] :=
  List.find?_eq_some_iff_getElem.mpr
    ⟨hp, i, by simpa using hi, by simp, fun j hj => by simpa using hbelow j hj⟩

theorem find_slot_eq_none {p : Slot → Bool} {slots : Vector Slot 16}
    (h : ∀ (j : Nat) (_ : j < 16), ¬ p slots[j] = true) : slots.toList.find? p = none := by
  refine List.find?_eq_none.mpr fun sl hsl => ?_
  obtain ⟨j, hj, rfl⟩ := List.getElem_of_mem hsl
  simpa using h j (by simpa using hj)

/-- Settles O36: the scan's result is the first slot of the list that matches. -/
theorem resolutionTakesTheLowestMatchingSlot :
    Obligations.ResolutionTakesTheLowestMatchingSlot := by
  intro v irqs fiqs
  refine ⟨isrAddress_of_fiq_or_no_irq, fun hfiq hirq i hi hen hsrc hbelow => ?lowest,
    fun hfiq hirq hnone => ?noMatch⟩
  case lowest =>
    have hfind : v.slots.toList.find? (slotMatches (irqBits v)) = some v.slots[i] :=
      find_slot_eq_some hi ((slotMatches_iff _ _).mpr ⟨hen, hsrc⟩)
        fun j hj => (slotMatches_iff _ _).not.mpr (hbelow j hj)
    rw [isrAddress_of_irq_only hfiq hirq, hfind]
    rfl
  case noMatch =>
    have hfind : v.slots.toList.find? (slotMatches (irqBits v)) = none :=
      find_slot_eq_none fun j hj => (slotMatches_iff _ _).not.mpr (hnone j hj)
    rw [isrAddress_of_irq_only hfiq hirq, hfind]
    rfl

/-! ### Vic operations that reach their rule (R90) -/

/-- A ready Vic operation that only reads changes nothing but the answer. -/
theorem vicQuery_of_ready {answer : Vic → Response} {s : State} {v : Vic} (h : VicReady s v) :
    vicQuery answer s = .next (answered s (answer v)) := by
  obtain ⟨hrun, hv⟩ := h
  exact vicQuery_ok hrun hv

/-- A ready Vic operation that edits leaves the edited Vic and its report, and changes nothing else. -/
theorem vicUpdate_of_ready {edit : Vic → Vic} {report : Response} {s : State} {v : Vic}
    (h : VicReady s v) : vicUpdate edit report s = .next (afterVic s (edit v) report) := by
  obtain ⟨hrun, hv⟩ := h
  exact vicUpdate_ok hrun hv

/-! ### Reads, in the fields of the Vic -/

/-- Settles O27: each status register is the query of one derived signal of R37. -/
theorem statusReadsShowTheLines : Obligations.StatusReadsShowTheLines := by
  refine ⟨fun d => ?keys, fun s v h => ⟨?irqStatus, ?fiqStatus, ?rawIntr⟩⟩
  case keys => simp [decode, opcodeTable, timerRows, vicMaskRows, OpcodeRow.selects]
  case irqStatus => exact vicQuery_of_ready (answer := fun v => .access (.okRead (irqBits v))) h
  case fiqStatus => exact vicQuery_of_ready (answer := fun v => .access (.okRead (fiqBits v))) h
  case rawIntr => exact vicQuery_of_ready (answer := fun v => .access (.okRead (rawLines v))) h

/-- Settles O30: each of the four registers is the query of its field. -/
theorem fieldReadsReturnTheField : Obligations.FieldReadsReturnTheField := by
  refine ⟨fun d => ?keys, fun s v h => ⟨?select, ?enable, ?sw, ?defvect⟩⟩
  case keys => simp [decode, opcodeTable, timerRows, vicMaskRows, vicVectorRows, OpcodeRow.selects]
  case select | enable | sw | defvect => exact vicQuery_of_ready h

/-- Settles O35: the read is the query of the resolved address, the write one that answers `Ok`. -/
theorem vectAddrReadsResolveAndWritesDoNothing :
    Obligations.VectAddrReadsResolveAndWritesDoNothing := by
  refine ⟨fun d => ?keys, fun s v h => ⟨?read, fun w => ?write⟩⟩
  case keys => simp [decode, opcodeTable, timerRows, vicMaskRows, vicVectorRows, OpcodeRow.selects]
  case read => exact vicQuery_of_ready (answer := fun v => .access (.okRead (isrAddress v))) h
  case write => exact vicQuery_of_ready (answer := fun _ => .access .okWrite) h

/-- Settles O29: all nine operations are the same query, which ignores the Vic and the word. -/
theorem wrongDirectionIsInvalidAccess : Obligations.WrongDirectionIsInvalidAccess := by
  refine ⟨fun w => ?keys, fun s v h w i hi => ?answer⟩
  case keys =>
    simp [decode, opcodeTable, timerRows, vicMaskRows, vicVectorRows, vicIdentRows,
      OpcodeRow.selects]
  case answer =>
    have hquery : exec i s = vicQuery (fun _ => .access .invalidAccess) s := by
      simp only [List.mem_cons, List.not_mem_nil, or_false] at hi
      rcases hi with rfl | rfl | rfl | rfl | rfl | rfl | rfl | rfl | rfl <;> rfl
    exact hquery.trans (vicQuery_of_ready h)

/-! ### The output lines (R129, R130) -/

theorem getLsbD_irqBits (v : Vic) (n : Nat) :
    (irqBits v).getLsbD n
      = ((v.hw.getLsbD n || v.sw.getLsbD n) && v.enable.getLsbD n && !v.select.getLsbD n) := by
  rw [irqBits, getLsbD_and_not, BitVec.getLsbD_and, rawLines, BitVec.getLsbD_or]

theorem getLsbD_fiqBits (v : Vic) (n : Nat) :
    (fiqBits v).getLsbD n
      = ((v.hw.getLsbD n || v.sw.getLsbD n) && v.enable.getLsbD n && v.select.getLsbD n) := by
  rw [fiqBits, BitVec.getLsbD_and, BitVec.getLsbD_and, rawLines, BitVec.getLsbD_or]

theorem irqLine_iff (v : Vic) :
    irqLine v = true ↔ ∃ n, n < 32 ∧ (v.hw.getLsbD n || v.sw.getLsbD n) = true
      ∧ v.enable.getLsbD n = true ∧ v.select.getLsbD n = false := by
  rw [irqLine, bne_iff_ne, word_ne_zero_iff]
  simp only [getLsbD_irqBits, Bool.and_eq_true, Bool.not_eq_true', and_assoc]

theorem fiqLine_iff (v : Vic) :
    fiqLine v = true ↔ ∃ n, n < 32 ∧ (v.hw.getLsbD n || v.sw.getLsbD n) = true
      ∧ v.enable.getLsbD n = true ∧ v.select.getLsbD n = true := by
  rw [fiqLine, bne_iff_ne, word_ne_zero_iff]
  simp only [getLsbD_fiqBits, Bool.and_eq_true, and_assoc]

/-- Settles O28: a line is on when its word of pending lines has a bit, which is a source line. -/
theorem outputLinesFollowTheLines : Obligations.OutputLinesFollowTheLines := by
  refine ⟨fun d => ?keys, fun s v h => ⟨⟨irqLine v, ?irq, irqLine_iff v⟩,
    ⟨fiqLine v, ?fiq, fiqLine_iff v⟩⟩⟩
  case keys =>
    simp [decode, opcodeTable, timerRows, vicMaskRows, vicVectorRows, vicIdentRows, vicPortRows,
      OpcodeRow.selects]
  case irq => exact vicQuery_of_ready (answer := fun v => .level (irqLine v)) h
  case fiq => exact vicQuery_of_ready (answer := fun v => .level (fiqLine v)) h

/-! ### Writes, in the fields of the Vic -/

/-- Settles O31: each write is the update of its field. -/
theorem fieldWritesReplaceTheField : Obligations.FieldWritesReplaceTheField := by
  refine ⟨fun w => ?keys, fun s v w h => ⟨?select, ?defvect⟩⟩
  case keys => simp [decode, opcodeTable, timerRows, vicMaskRows, vicVectorRows, OpcodeRow.selects]
  case select => exact vicUpdate_of_ready (edit := fun v => { v with select := w }) h
  case defvect => exact vicUpdate_of_ready (edit := fun v => { v with defvect := w }) h

/-- Settles O33: a clearing write is AND with the complement, a setting write is OR. -/
theorem setAndClearWritesTouchTheirLines : Obligations.SetAndClearWritesTouchTheirLines := by
  refine ⟨fun w => ?keys, fun s v w h => ⟨?intEnClear, ?softInt, ?softIntClear⟩⟩
  case keys => simp [decode, opcodeTable, timerRows, vicMaskRows, OpcodeRow.selects]
  case intEnClear =>
    exact ⟨v.enable &&& ~~~w, vicUpdate_of_ready h, getLsbD_and_not v.enable w⟩
  case softInt => exact ⟨v.sw ||| w, vicUpdate_of_ready h, fun n => BitVec.getLsbD_or⟩
  case softIntClear => exact ⟨v.sw &&& ~~~w, vicUpdate_of_ready h, getLsbD_and_not v.sw w⟩

/-! ### The vector table (R114 to R116) -/

section Slot
variable {i : Nat} (hi : i < 16)
include hi

theorem decode_vectAddrSlotRd (d : Word) :
    decode ⟨BitVec.ofNat 16 (0x4100 + 4 * i), d⟩ = .instr (.vicVectAddrSlotRd i) :=
  decode_slotRow (m := "VIC_VECTADDRn_RD") (build := fun i _ => .vicVectAddrSlotRd i)
    (by simp [opcodeTable, vicVectorRows]) (by decide) hi d

theorem decode_vectAddrSlotWr (w : Word) :
    decode ⟨BitVec.ofNat 16 (0x5100 + 4 * i), w⟩ = .instr (.vicVectAddrSlotWr i w) :=
  decode_slotRow (m := "VIC_VECTADDRn_WR") (build := fun i w => .vicVectAddrSlotWr i w)
    (by simp [opcodeTable, vicVectorRows]) (by decide) hi w

theorem decode_vectCntlSlotRd (d : Word) :
    decode ⟨BitVec.ofNat 16 (0x4200 + 4 * i), d⟩ = .instr (.vicVectCntlSlotRd i) :=
  decode_slotRow (m := "VIC_VECTCNTLn_RD") (build := fun i _ => .vicVectCntlSlotRd i)
    (by simp [opcodeTable, vicVectorRows]) (by decide) hi d

theorem exec_vectAddrSlotRd (s : State) :
    exec (.vicVectAddrSlotRd i) s
      = vicQuery (fun v => .access (.okRead (slotAt v i hi).addr)) s := dif_pos hi

theorem exec_vectCntlSlotRd (s : State) :
    exec (.vicVectCntlSlotRd i) s
      = vicQuery (fun v => .access (.okRead (vectCntlWord (slotAt v i hi)))) s := dif_pos hi

theorem exec_vectAddrSlotWr (w : Word) (s : State) :
    exec (.vicVectAddrSlotWr i w) s
      = vicUpdate (fun v => putSlot v i hi { slotAt v i hi with addr := w }) (.access .okWrite) s :=
  dif_pos hi

end Slot

/-- The enable flag, at bit 5, and the source line, below bit 5, do not overlap, so the word is
their sum (R116). -/
theorem vectCntlWord_toNat (sl : Slot) :
    (vectCntlWord sl).toNat = (if sl.en then 32 else 0) + sl.src.toNat := by
  have hsrc : sl.src.toNat < 2 ^ 5 := sl.src.isLt
  cases hen : sl.en
  · simp [vectCntlWord, hen]; omega
  · simpa [vectCntlWord, hen, Nat.mod_eq_of_lt (show sl.src.toNat < 4294967296 by omega)] using
      (Nat.two_pow_add_eq_or_of_lt hsrc 1).symm

/-- Settles O37, by the query of a slot below 16. -/
theorem slotReadsReturnTheSlot : Obligations.SlotReadsReturnTheSlot := by
  refine ⟨fun i d hi => ⟨decode_vectAddrSlotRd hi d, decode_vectCntlSlotRd hi d⟩,
    fun s v i hi h => ⟨?address, vectCntlWord v.slots[i], ?control, vectCntlWord_toNat _⟩⟩
  case address => exact (exec_vectAddrSlotRd hi s).trans (vicQuery_of_ready h)
  case control => exact (exec_vectCntlSlotRd hi s).trans (vicQuery_of_ready h)

/-- Settles O38, by the update of a slot below 16. -/
theorem slotAddressWriteSetsTheAddress : Obligations.SlotAddressWriteSetsTheAddress := by
  refine ⟨fun i w hi => decode_vectAddrSlotWr hi w, fun s v i hi w h => ?_⟩
  exact (exec_vectAddrSlotWr hi w s).trans (vicUpdate_of_ready h)

end Sys2Proof.Proofs
end

section
/-! PROOFS. The constructed Vic: its derived signals, and what its operations answer right after
construction (spec/70_reset_and_hazards.md R154). -/

namespace Sys2Proof.Proofs

open Sys2Proof Sys2Proof.Machine Sys2Proof.Certificates

/-! ### The zeroed Vic -/

theorem slots_newVic (n : Nat) (h : n < 16) : newVic.slots[n] = newSlot :=
  Vector.getElem_replicate h

theorem irqBits_newVic : irqBits newVic = 0 := by decide

theorem fiqBits_newVic : fiqBits newVic = 0 := by decide

/-- With no line pending the zeroed Vic resolves to its default address, which is 0 (R109). -/
theorem isrAddress_newVic : isrAddress newVic = 0 :=
  isrAddress_of_fiq_or_no_irq (.inr irqBits_newVic)

theorem vectCntlWord_newSlot : vectCntlWord newSlot = 0 := by decide

/-- Right after construction an operation on any Vic of the platform reaches its rule, on the
zeroed Vic. -/
theorem vicReady_construct {p : Platform} {k : Nat} (hk : k < p.vics) :
    VicReady { State.construct p with inst := k } newVic :=
  ⟨rfl, List.getElem?_replicate_of_lt hk⟩

/-! ### What a zeroed Vic answers -/

section Zeroed
variable {s : State} (h : VicReady s newVic)
include h

theorem exec_vicIrq_newVic : exec .vicIrq s = .next (answered s (.level false)) := by
  have hline : irqLine newVic = false := by simp [irqLine, irqBits_newVic]
  rw [← hline]
  exact vicQuery_of_ready (answer := fun v => .level (irqLine v)) h

theorem exec_vicFiq_newVic : exec .vicFiq s = .next (answered s (.level false)) := by
  have hline : fiqLine newVic = false := by simp [fiqLine, fiqBits_newVic]
  rw [← hline]
  exact vicQuery_of_ready (answer := fun v => .level (fiqLine v)) h

/-- The status reads show no line, the fields are 0, and the resolved address is the default one. -/
theorem exec_registerRead_newVic {i : Instr}
    (hi : i ∈ [.vicIrqStatusRd, .vicFiqStatusRd, .vicRawIntrRd, .vicIntSelectRd, .vicIntEnableRd,
      .vicSoftIntRd, .vicVectAddrRd, .vicDefVectAddrRd]) :
    exec i s = .next (answered s (.access (.okRead 0))) := by
  obtain ⟨hirqStatus, hfiqStatus, hraw⟩ := statusReadsShowTheLines.2 s newVic h
  obtain ⟨hselect, henable, hsw, hdefvect⟩ := fieldReadsReturnTheField.2 s newVic h
  obtain ⟨hvect, -⟩ := vectAddrReadsResolveAndWritesDoNothing.2 s newVic h
  rw [isrAddress_newVic] at hvect
  simp only [List.mem_cons, List.not_mem_nil, or_false] at hi
  rcases hi with rfl | rfl | rfl | rfl | rfl | rfl | rfl | rfl
  exacts [hirqStatus, hfiqStatus, hraw, hselect, henable, hsw, hvect, hdefvect]

theorem exec_slotReads_newVic {n : Nat} (hn : n < 16) :
    exec (.vicVectAddrSlotRd n) s = .next (answered s (.access (.okRead 0)))
      ∧ exec (.vicVectCntlSlotRd n) s = .next (answered s (.access (.okRead 0))) := by
  have hslot : slotAt newVic n hn = newSlot := slots_newVic n hn
  rw [exec_vectAddrSlotRd hn, exec_vectCntlSlotRd hn, vicQuery_of_ready h, vicQuery_of_ready h,
    hslot, vectCntlWord_newSlot]
  exact ⟨rfl, rfl⟩

end Zeroed

/-- Settles O58: a platform's Vic is the zeroed one right after construction, and its operations
reach their rules. -/
theorem vicsAreConstructedZero : Obligations.VicsAreConstructedZero := by
  intro p k hk s
  have h : VicReady s newVic := vicReady_construct hk
  refine ⟨⟨newVic, h.2, rfl, rfl, rfl, rfl, rfl, slots_newVic⟩, exec_vicIrq_newVic h,
    exec_vicFiq_newVic h, fun i hi => exec_registerRead_newVic h hi,
    fun n hn => exec_slotReads_newVic h hn, ?protection⟩
  case protection => exact vicQuery_of_ready (answer := fun _ => .access (.stubRead 0)) h

end Sys2Proof.Proofs
end

section
/-! PROOFS. The decoder and the encoder: keys, the rows of the opcode table, and the round trip
between a key and its operation (spec/30_encoding.md R65 to R73). -/

namespace Sys2Proof.Proofs

open Sys2Proof Sys2Proof.Machine Sys2Proof.Certificates

/-! ### Encoded keys with an operand field (R41, R67) -/

/-- The key of a slot's register is the table's base key plus four times the slot's index. -/
theorem vicKey_slotOffset : ∀ i : Fin 16,
    vicKey 0 (slotOffset 0x100 i) = BitVec.ofNat 16 (0x4100 + 4 * i)
      ∧ vicKey 1 (slotOffset 0x100 i) = BitVec.ofNat 16 (0x5100 + 4 * i)
      ∧ vicKey 0 (slotOffset 0x200 i) = BitVec.ofNat 16 (0x4200 + 4 * i)
      ∧ vicKey 1 (slotOffset 0x200 i) = BitVec.ofNat 16 (0x5200 + 4 * i) := by decide

/-- The key of `assert` or `clear` matches its row, and holds the source line. -/
theorem portKey_fields : ∀ n : Fin 32,
    (portKey 0 n &&& 0xFFE0#16 = 0x8000#16 ∧ keySource (portKey 0 n) = n)
      ∧ (portKey 1 n &&& 0xFFE0#16 = 0x9000#16 ∧ keySource (portKey 1 n) = n) := by decide

theorem decode_vectCntlSlotWr {i : Nat} (hi : i < 16) (w : Word) :
    decode ⟨BitVec.ofNat 16 (0x5200 + 4 * i), w⟩ = .instr (.vicVectCntlSlotWr i w) :=
  decode_slotRow (m := "VIC_VECTCNTLn_WR") (build := fun i w => .vicVectCntlSlotWr i w)
    (by simp [opcodeTable, vicVectorRows]) (by decide) hi w

theorem decode_sourceRow {m : String} {bits k : Key} {n : Nat} {build : Nat → Instr}
    (hr : ⟨m, bits, 0xFFE0#16, fun k _ => build (keySource k)⟩ ∈ opcodeTable)
    (hk : k &&& 0xFFE0#16 = bits) (hn : keySource k = n) (d : Word) :
    decode ⟨k, d⟩ = .instr (build n) :=
  (decode_of_row hr hk d).trans (congrArg (fun n => Decoded.instr (build n)) hn)

theorem decode_portKey_assert {n : Nat} (hn : n < 32) (d : Word) :
    decode ⟨portKey 0 n, d⟩ = .instr (.vicAssert n) := by
  obtain ⟨⟨hbits, hsource⟩, -⟩ := portKey_fields ⟨n, hn⟩
  exact decode_sourceRow (m := "VIC_ASSERT") (build := .vicAssert)
    (by simp [opcodeTable, vicPortRows]) hbits hsource d

theorem decode_portKey_clear {n : Nat} (hn : n < 32) (d : Word) :
    decode ⟨portKey 1 n, d⟩ = .instr (.vicClear n) := by
  obtain ⟨-, hbits, hsource⟩ := portKey_fields ⟨n, hn⟩
  exact decode_sourceRow (m := "VIC_CLEAR") (build := .vicClear)
    (by simp [opcodeTable, vicPortRows]) hbits hsource d

/-- Settles O2: a slot's key and a port's key decode by their rows; every other key is a constant. -/
theorem decodeOfEncodeIsIdentity : Obligations.DecodeOfEncodeIsIdentity := by
  intro i hwf
  cases i
  case vicVectAddrSlotRd i =>
    have hi : i < 16 := of_decide_eq_true hwf
    obtain ⟨hkey, -⟩ := vicKey_slotOffset ⟨i, hi⟩
    rw [encode, hkey, decode_vectAddrSlotRd hi]
  case vicVectAddrSlotWr i w =>
    have hi : i < 16 := of_decide_eq_true hwf
    obtain ⟨-, hkey, -⟩ := vicKey_slotOffset ⟨i, hi⟩
    rw [encode, hkey, decode_vectAddrSlotWr hi]
  case vicVectCntlSlotRd i =>
    have hi : i < 16 := of_decide_eq_true hwf
    obtain ⟨-, -, hkey, -⟩ := vicKey_slotOffset ⟨i, hi⟩
    rw [encode, hkey, decode_vectCntlSlotRd hi]
  case vicVectCntlSlotWr i w =>
    have hi : i < 16 := of_decide_eq_true hwf
    obtain ⟨-, -, -, hkey⟩ := vicKey_slotOffset ⟨i, hi⟩
    rw [encode, hkey, decode_vectCntlSlotWr hi]
  case vicAssert n => exact decode_portKey_assert (of_decide_eq_true hwf) 0
  case vicClear n => exact decode_portKey_clear (of_decide_eq_true hwf) 0
  all_goals simp [encode, timerKey, vicKey, portKey, decode, opcodeTable, timerRows, vicMaskRows,
    vicVectorRows, vicIdentRows, vicPortRows, OpcodeRow.selects]

/-! ### From a key to the operation and back -/

/-- A key has the bits of a row it matches, where the row's mask is 1. -/
theorem getLsbD_of_matches {k mask bits : Key} (hk : k &&& mask = bits) {n : Nat}
    (hn : mask.getLsbD n = true) : k.getLsbD n = bits.getLsbD n := by
  rw [← hk, BitVec.getLsbD_and, hn, Bool.and_true]

/-- The row's operation encodes to the key it was built from, with the data lane of a Write. -/
def RoundTrips (r : OpcodeRow) : Prop :=
  ∀ (k : Key) (d : Word), k &&& r.mask = r.bits → encode (r.build k d)
    = ⟨k, if r.bits.getLsbD 15 = false ∧ r.bits.getLsbD 12 = true then d else 0⟩

/-- A row with no operand field matches one key, so its round trip is checked there. -/
theorem roundTrips_of_fixed {m : String} {bits : Key} {build : Key → Word → Instr}
    (h : ∀ d, encode (build bits d)
      = ⟨bits, if bits.getLsbD 15 = false ∧ bits.getLsbD 12 = true then d else 0⟩) :
    RoundTrips ⟨m, bits, 0xFFFF#16, build⟩ := by
  intro k d hk
  obtain rfl : k = bits := (BitVec.and_allOnes (x := k)).symm.trans hk
  exact h d

theorem slotBase_or : ∀ base ∈ [0x4100, 0x5100, 0x4200, 0x5200], ∀ i : Fin 16,
    BitVec.ofNat 16 base ||| (BitVec.ofNat 16 i <<< 2) = BitVec.ofNat 16 (base + 4 * i) := by decide

/-- A key that matches a row of a vector table is the table's base key plus four times its slot. -/
theorem eq_slotKey_of_matches {k : Key} {base : Nat} (hbase : base ∈ [0x4100, 0x5100, 0x4200, 0x5200])
    (hk : k &&& 0xFFC3#16 = BitVec.ofNat 16 base) : k = BitVec.ofNat 16 (base + 4 * keySlot k) := by
  rw [← slotBase_or base hbase ⟨keySlot k, keySlot_lt k⟩, ← hk]
  exact key_of_slot k

/-- A row of a vector table matches the 16 keys with a slot index in bits 5:2. -/
theorem roundTrips_of_slot {m : String} {base : Nat} {build : Nat → Word → Instr}
    (hbase : base ∈ [0x4100, 0x5100, 0x4200, 0x5200])
    (h : ∀ (i : Fin 16) (d : Word), encode (build i d) = ⟨BitVec.ofNat 16 (base + 4 * i),
      if (BitVec.ofNat 16 base).getLsbD 15 = false ∧ (BitVec.ofNat 16 base).getLsbD 12 = true
      then d else 0⟩) :
    RoundTrips ⟨m, BitVec.ofNat 16 base, 0xFFC3#16, fun k d => build (keySlot k) d⟩ := by
  intro k d hk
  exact (h ⟨keySlot k, keySlot_lt k⟩ d).trans
    (congrArg (OpWords.mk · _) (eq_slotKey_of_matches hbase hk).symm)

/-- A port row matches the 32 keys with a source line in bits 4:0, and carries no data. -/
theorem roundTrips_of_source {m : String} {bits : Key} {build : Nat → Instr}
    (hbit : bits.getLsbD 15 = true)
    (h : ∀ n : Fin 32, encode (build n) = ⟨bits ||| BitVec.ofNat 16 n, 0⟩) :
    RoundTrips ⟨m, bits, 0xFFE0#16, fun k _ => build (keySource k)⟩ := by
  intro k d hk
  have hkey : bits ||| BitVec.ofNat 16 (keySource k) = k := by
    rw [← show _ = bits from hk, ← key_of_source]
  exact (h ⟨keySource k, keySource_lt k⟩).trans (by simp [hkey, hbit])

theorem timerRows_roundTrip : ∀ r ∈ timerRows, RoundTrips r := by
  intro r hr
  fin_cases hr <;> exact roundTrips_of_fixed fun _ => rfl

theorem vicMaskRows_roundTrip : ∀ r ∈ vicMaskRows, RoundTrips r := by
  intro r hr
  fin_cases hr <;> exact roundTrips_of_fixed fun _ => rfl

theorem vicIdentRows_roundTrip : ∀ r ∈ vicIdentRows, RoundTrips r := by
  intro r hr
  fin_cases hr <;> exact roundTrips_of_fixed fun _ => rfl

theorem vicVectorRows_roundTrip : ∀ r ∈ vicVectorRows, RoundTrips r := by
  have hfixed : ∀ r ∈ vicVectorRows.take 6, RoundTrips r := by
    intro r hr
    fin_cases hr <;> exact roundTrips_of_fixed fun _ => rfl
  have hslot : ∀ r ∈ vicVectorRows.drop 6, RoundTrips r := by
    intro r hr
    fin_cases hr
    · refine roundTrips_of_slot (build := fun i _ => .vicVectAddrSlotRd i) (by decide) fun i d => ?_
      obtain ⟨hkey, -⟩ := vicKey_slotOffset i
      exact congrArg (OpWords.mk · 0) hkey
    · refine roundTrips_of_slot (build := fun i d => .vicVectAddrSlotWr i d) (by decide) fun i d => ?_
      obtain ⟨-, hkey, -⟩ := vicKey_slotOffset i
      exact congrArg (OpWords.mk · d) hkey
    · refine roundTrips_of_slot (build := fun i _ => .vicVectCntlSlotRd i) (by decide) fun i d => ?_
      obtain ⟨-, -, hkey, -⟩ := vicKey_slotOffset i
      exact congrArg (OpWords.mk · 0) hkey
    · refine roundTrips_of_slot (build := fun i d => .vicVectCntlSlotWr i d) (by decide) fun i d => ?_
      obtain ⟨-, -, -, hkey⟩ := vicKey_slotOffset i
      exact congrArg (OpWords.mk · d) hkey
  rw [← List.take_append_drop 6 vicVectorRows]
  exact List.forall_mem_append.mpr ⟨hfixed, hslot⟩

theorem vicPortRows_roundTrip : ∀ r ∈ vicPortRows, RoundTrips r := by
  intro r hr
  fin_cases hr
  · exact roundTrips_of_source (build := .vicAssert) rfl fun _ => rfl
  · exact roundTrips_of_source (build := .vicClear) rfl fun _ => rfl
  · exact roundTrips_of_fixed fun _ => rfl
  · exact roundTrips_of_fixed fun _ => rfl

theorem opcodeTable_roundTrip : ∀ r ∈ opcodeTable, RoundTrips r := by
  simp only [opcodeTable, List.forall_mem_append]
  exact ⟨⟨⟨⟨timerRows_roundTrip, vicMaskRows_roundTrip⟩, vicVectorRows_roundTrip⟩,
    vicIdentRows_roundTrip⟩, vicPortRows_roundTrip⟩

/-- Every row fixes the class, bit 13 and the direction of its keys. -/
theorem mask_fixes_head : ∀ r ∈ opcodeTable, r.mask &&& 0xF000#16 = 0xF000#16 := by decide

/-- A key has the four high bits of the row it matches. -/
theorem head_of_matches {k : Key} {r : OpcodeRow} (hr : r ∈ opcodeTable)
    (hk : k &&& r.mask = r.bits) {n : Nat} (hn : (0xF000#16).getLsbD n = true) :
    k.getLsbD n = r.bits.getLsbD n := by
  refine getLsbD_of_matches hk ?_
  rw [← mask_fixes_head r hr, BitVec.getLsbD_and, Bool.and_eq_true] at hn
  exact hn.1

/-- Settles O3, by the round trip of the row that selected the key. -/
theorem encodeOfDecodeIsTheKey : Obligations.EncodeOfDecodeIsTheKey := by
  intro w i hdec
  obtain ⟨r, hr, hk, rfl⟩ := decode_instr hdec
  have hencode := opcodeTable_roundTrip r hr w.key w.data hk
  refine ⟨build_wellFormed w.key w.data r hr, by rw [hencode], ?_⟩
  rw [hencode, head_of_matches hr hk (n := 15) rfl, head_of_matches hr hk (n := 12) rfl]

end Sys2Proof.Proofs
end

section
/-! PROOFS. Keys by their class, reserved keys, and what an agent's request decodes to
(spec/30_encoding.md R66 to R68, R73, spec/20_memory.md R48). -/

namespace Sys2Proof.Proofs

open Sys2Proof Sys2Proof.Machine Sys2Proof.Certificates

/-! ### Keys that match no row (R68) -/

/-- The class is the number in bits 15 and 14. -/
theorem keyClass_eq (k : Key) :
    keyClass k = 2 * (k.getLsbD 15).toNat + (k.getLsbD 14).toNat := by
  simp only [keyClass, BitVec.toNat_ushiftRight, Nat.shiftRight_eq_div_pow, BitVec.getLsbD,
    Nat.toNat_testBit]
  have hlt : k.toNat < 2 ^ 16 := k.isLt
  omega

theorem decode_unmatched {k : Key} (d : Word) (h : ∀ r ∈ opcodeTable, k &&& r.mask ≠ r.bits) :
    decode ⟨k, d⟩ = decodeUnmatched k := by
  have hfind : opcodeTable.find? (fun r => r.selects k) = none :=
    List.find?_eq_none.mpr fun r hr => by simpa [OpcodeRow.selects] using h r hr
  simp [decode, hfind]

theorem decodeUnmatched_eq (k : Key) : decodeUnmatched k =
    if k.getLsbD 15 then .rejected (if k.getLsbD 14 then .reservedClass else .portBitsSet)
    else if k.getLsbD 13 then .rejected .zBitSet
    else .unmapped (if k.getLsbD 14 then .vic else .timer) := by
  simp only [decodeUnmatched, keyClass_eq, keyZ]
  cases k.getLsbD 15 <;> cases k.getLsbD 14 <;> cases k.getLsbD 13 <;> rfl

/-! ### Steps of requests that are no row of the table -/

theorem step_rejected {s : State} {r : Request} {rest : List Request} {why : Reject}
    (hp : s.pending = r :: rest) (hd : r.op.decode = .rejected why) :
    step s = .refused (.badOperation why) := by
  rw [step_cons hp, hd]

/-- A step of an access to an unmapped offset reports `UnexpectedAddress`, unless it ends the run. -/
theorem step_unmapped_response {s t : State} {r : Request} {rest : List Request} {dev : Device}
    (hp : s.pending = r :: rest) (hd : r.op.decode = .unmapped dev) (h : step s = .next t)
    (hrun : t.halted = false) : t.response = .access .unexpectedAddress := by
  rw [step_cons hp, hd] at h
  cases dev
  case timer =>
    obtain ⟨-, u, -, -, ⟨kind, -, rfl⟩ | ⟨u', -, ⟨kind, hk, -⟩ | ⟨w, o, hw, rfl⟩⟩⟩ :=
      timerAccess_next h
    · simp at hrun
    · cases hk
    · cases hw; rfl
  case vic =>
    obtain ⟨-, v, -, rfl⟩ := vicQuery_next.mp h
    rfl

/-- Settles O4: rows that overlapped would contradict `opcodeTable_disjoint`; the rest is the
decoder's two branches and the step's. -/
theorem keysDecodeByTheTable : Obligations.KeysDecodeByTheTable := by
  refine ⟨?disjoint, fun w r hr hk => decode_of_row hr hk w.data, fun w hnone => ?byClass,
    fun s t r rest dev => step_unmapped_response, fun s r rest why => step_rejected⟩
  case disjoint =>
    refine opcodeTable_disjoint.imp fun {a b} hdiff k hk => ?_
    obtain ⟨ha, hb⟩ := hk
    rw [← ha, ← hb] at hdiff
    exact hdiff (by ac_rfl)
  case byClass =>
    rw [decode_unmatched w.data hnone, decodeUnmatched_eq]
    cases w.key.getLsbD 15 <;> cases w.key.getLsbD 14 <;> cases w.key.getLsbD 13 <;> simp

/-! ### The reserved keys (R73) -/

/-- The fields R73 tests, of a key and of the row it matches, agree. -/
theorem and_eq_of_matches {k mask bits field : Key} (hk : k &&& mask = bits)
    (hfield : mask &&& field = field) : k &&& field = bits &&& field := by
  rw [← hk, BitVec.and_assoc, hfield]

/-- No row's fixed bits are reserved, and a row fixes every field that R73 reserves in its class. -/
theorem rows_not_reserved : ∀ r ∈ opcodeTable,
    ¬ (r.bits.getLsbD 15 = true ∧ r.bits.getLsbD 14 = true)
      ∧ ¬ (r.bits.getLsbD 15 = false ∧ r.bits.getLsbD 13 = true)
      ∧ (r.bits.getLsbD 15 = true → r.mask &&& 0x0FE0#16 = 0x0FE0#16 ∧ r.bits &&& 0x0FE0#16 = 0)
      ∧ (r.bits.getLsbD 15 = true → r.bits.getLsbD 13 = true →
          r.mask &&& 0x001F#16 = 0x001F#16 ∧ r.bits &&& 0x001F#16 = 0) := by decide

theorem no_row_of_reserved {k : Key} (hres : ReservedKey k) :
    ∀ r ∈ opcodeTable, k &&& r.mask ≠ r.bits := by
  intro r hr hk
  obtain ⟨hclass, hz, hport, hsource⟩ := rows_not_reserved r hr
  unfold ReservedKey at hres
  rw [head_of_matches hr hk (n := 15) rfl, head_of_matches hr hk (n := 14) rfl,
    head_of_matches hr hk (n := 13) rfl] at hres
  obtain h | h | ⟨h15, -, h⟩ | ⟨h15, -, h13, h⟩ := hres
  · exact hclass h
  · exact hz h
  · obtain ⟨hmask, hbits⟩ := hport h15
    exact h ((and_eq_of_matches hk hmask).trans hbits)
  · obtain ⟨hmask, hbits⟩ := hsource h15 h13
    exact h ((and_eq_of_matches hk hmask).trans hbits)

theorem decode_reserved {k : Key} (d : Word) (hres : ReservedKey k) :
    ∃ why, decode ⟨k, d⟩ = .rejected why := by
  rw [decode_unmatched d (no_row_of_reserved hres), decodeUnmatched_eq]
  unfold ReservedKey at hres
  obtain ⟨h15, -⟩ | ⟨h15, h13⟩ | ⟨h15, -⟩ | ⟨h15, -⟩ := hres
  · exact ⟨_, if_pos h15⟩
  · exact ⟨.zBitSet, by rw [h15, h13]; rfl⟩
  · exact ⟨_, if_pos h15⟩
  · exact ⟨_, if_pos h15⟩

/-- The four high bits of a key make the number in them. -/
theorem and_head_eq {k c : Key} (hc : c &&& 0xF000#16 = c)
    (h : ∀ n, 12 ≤ n → n < 16 → k.getLsbD n = c.getLsbD n) : k &&& 0xF000#16 = c := by
  rw [← hc]
  refine BitVec.eq_of_getLsbD_eq fun n hn => ?_
  rw [BitVec.getLsbD_and, BitVec.getLsbD_and]
  by_cases h12 : 12 ≤ n
  · rw [h n h12 hn]
  · have hzero : (0xF000#16).getLsbD n = false := by interval_cases n <;> rfl
    rw [hzero, Bool.and_false, Bool.and_false]

/-- A key of class 10 with bits 11:5 clear, and with bits 4:0 clear if it is an `irq` or `fiq` key,
matches the row that its bits 13:12 name. -/
theorem row_of_port_key {k : Key} (h15 : k.getLsbD 15 = true) (h14 : k.getLsbD 14 = false)
    (hport : k &&& 0x0FE0#16 = 0) (hsource : k.getLsbD 13 = true → k &&& 0x001F#16 = 0) :
    ∃ r ∈ vicPortRows, k &&& r.mask = r.bits := by
  have hline : k &&& 0xFFE0#16 = k &&& 0xF000#16 := by
    rw [show 0xFFE0#16 = 0xF000#16 ||| 0x0FE0#16 by rfl, BitVec.and_or_distrib_left, hport]
    exact BitVec.or_zero
  have hwhole (h13 : k.getLsbD 13 = true) : k &&& 0xFFFF#16 = k &&& 0xF000#16 := by
    rw [show 0xFFFF#16 = 0xFFE0#16 ||| 0x001F#16 by rfl, BitVec.and_or_distrib_left, hsource h13,
      ← hline]
    exact BitVec.or_zero
  cases h13 : k.getLsbD 13 <;> cases h12 : k.getLsbD 12
  case false.false =>
    refine ⟨_, .head _, hline.trans (and_head_eq rfl fun n hn hn' => ?_)⟩
    interval_cases n <;> assumption
  case false.true =>
    refine ⟨_, .tail _ (.head _), hline.trans (and_head_eq rfl fun n hn hn' => ?_)⟩
    interval_cases n <;> assumption
  case true.false =>
    refine ⟨_, .tail _ (.tail _ (.head _)),
      (hwhole h13).trans (and_head_eq rfl fun n hn hn' => ?_)⟩
    interval_cases n <;> assumption
  case true.true =>
    refine ⟨_, .tail _ (.tail _ (.tail _ (.head _))),
      (hwhole h13).trans (and_head_eq rfl fun n hn hn' => ?_)⟩
    interval_cases n <;> assumption

/-- Settles O5: a reserved key matches no row; another key of class 10 matches a port row, and another
key of class 00 or 01 is an operation or an unmapped access. -/
theorem reservedKeysAreRefused : Obligations.ReservedKeysAreRefused := by
  refine ⟨fun s inst now k d rest hp hres => ?refused, fun k d hres => ?others⟩
  case refused =>
    obtain ⟨why, hdec⟩ := decode_reserved d hres
    exact ⟨why, step_rejected hp hdec⟩
  case others =>
    simp only [ReservedKey, not_or, not_and, not_not, ne_eq] at hres
    obtain ⟨hclass, hz, hport, hsource⟩ := hres
    by_cases hmatch : ∃ r ∈ opcodeTable, k &&& r.mask = r.bits
    · obtain ⟨r, hr, hk⟩ := hmatch
      exact .inl ⟨_, decode_of_row hr hk d⟩
    push Not at hmatch
    cases h15 : k.getLsbD 15
    · refine .inr ⟨rfl, if k.getLsbD 14 then .vic else .timer, ?_⟩
      rw [decode_unmatched d hmatch, decodeUnmatched_eq, h15, eq_false_of_ne_true (hz h15)]
      rfl
    · have h14 : k.getLsbD 14 = false := eq_false_of_ne_true (hclass h15)
      obtain ⟨r, hr, hk⟩ := row_of_port_key h15 h14 (hport h15 h14) (hsource h15 h14)
      exact absurd hk (hmatch r (List.mem_append_right _ hr))

/-! ### Bus accesses (R66) -/

/-- A key's number is its class and direction above its offset. -/
theorem or_offset_eq {c off : Nat} (hoff : off < 2 ^ 12) :
    BitVec.ofNat 16 (2 ^ 12 * c) ||| BitVec.ofNat 16 off = BitVec.ofNat 16 (2 ^ 12 * c + off) := by
  rw [Nat.two_pow_add_eq_or_of_lt hoff, BitVec.ofNat_or]

theorem busKey_eq (dev : Device) (dir : Dir) {off : Nat} (hoff : off ≤ 0xFFF) :
    busKey dev dir off
      = some (BitVec.ofNat 16 (classOf dev * 16384 + directionOf dir * 4096 + off)) := by
  have hlt : off < 2 ^ 12 := by omega
  have hhead : classOf dev * 16384 + directionOf dir * 4096
      = 2 ^ 12 * (4 * classOf dev + directionOf dir) := by omega
  rw [hhead, ← or_offset_eq hlt]
  cases dev <;> cases dir <;> exact if_pos hoff

/-- Settles O6, by the key of an offset that has one. -/
theorem busAccessesHaveTheirKeys : Obligations.BusAccessesHaveTheirKeys := by
  intro dev dir off v
  constructor
  · intro hoff
    simp only [Operation.decode, decodeBus, busKey_eq dev dir hoff]
  · intro hoff
    simp only [Operation.decode, decodeBus, busKey, if_neg (Nat.not_le.mpr hoff)]

/-- Settles O8: neither sub-word size reaches the key of the access. -/
theorem subWordAccessesAreRefused : Obligations.SubWordAccessesAreRefused := by
  intro s inst now dev dir size off v rest hp hsize
  refine step_rejected hp ?_
  cases size
  case byte | halfword => rfl
  case word => exact absurd rfl hsize

/-! ### Port calls (R67) -/

theorem portKey_eq : ∀ n : Fin 32,
    (0x8000#16 ||| BitVec.ofNat 16 n = portKey 0 n ∧ BitVec.ofNat 16 (0x8000 + n) = portKey 0 n)
      ∧ (0x9000#16 ||| BitVec.ofNat 16 n = portKey 1 n
        ∧ BitVec.ofNat 16 (0x9000 + n) = portKey 1 n) := by decide

theorem decode_assertLine {n : Nat} (hn : n < 32) :
    (Operation.assertLine n).decode = .instr (.vicAssert n) := by
  rw [Operation.decode, if_pos hn, (portKey_eq ⟨n, hn⟩).1.1, decode_portKey_assert hn]

theorem decode_clearLine {n : Nat} (hn : n < 32) :
    (Operation.clearLine n).decode = .instr (.vicClear n) := by
  rw [Operation.decode, if_pos hn, (portKey_eq ⟨n, hn⟩).2.1, decode_portKey_clear hn]

theorem decode_assertKey {n : Nat} (hn : n < 32) (d : Word) :
    decode ⟨BitVec.ofNat 16 (0x8000 + n), d⟩ = .instr (.vicAssert n) := by
  rw [(portKey_eq ⟨n, hn⟩).1.2, decode_portKey_assert hn]

theorem decode_clearKey {n : Nat} (hn : n < 32) (d : Word) :
    decode ⟨BitVec.ofNat 16 (0x9000 + n), d⟩ = .instr (.vicClear n) := by
  rw [(portKey_eq ⟨n, hn⟩).2.2, decode_portKey_clear hn]

/-- Settles O7, by the port rows; a source line of 32 or more is refused before a key is formed. -/
theorem portCallsHaveTheirKeys : Obligations.PortCallsHaveTheirKeys := by
  refine ⟨fun n hn => ⟨⟨?_, decode_assertLine hn⟩, ?_, decode_clearLine hn⟩, ⟨rfl, rfl⟩, ⟨rfl, rfl⟩,
    fun st inst now n rest hn hp => ?refused⟩
  · rw [decode_assertLine hn, decode_assertKey hn]
  · rw [decode_clearLine hn, decode_clearKey hn]
  case refused =>
    obtain hp | hp := hp
    · exact step_rejected hp (if_neg (Nat.not_lt.mpr hn))
    · exact step_rejected hp (if_neg (Nat.not_lt.mpr hn))

/-- Settles O1: each key is a constant that one row matches. -/
theorem sampleKeysDecode : Obligations.SampleKeysDecode := by
  unfold Obligations.SampleKeysDecode
  decide

/-- Settles O9, by the step's equations. -/
theorem stepRunsTheDecodedOperation : Obligations.StepRunsTheDecodedOperation := by
  refine ⟨fun s r rest i hp hd => ?_, fun s => step_empty⟩
  rw [step_cons hp, hd]
  rfl

/-! ### Register maps (R38, R41) -/

/-- The registers of a table of 16 words. -/
theorem slotOffset_iff {base off : Nat} (hbase : base % 4 = 0) :
    (∃ i, i < 16 ∧ off = base + 4 * i) ↔ base ≤ off ∧ off ≤ base + 0x3C ∧ off % 4 = 0 := by
  constructor
  · rintro ⟨i, hi, rfl⟩
    omega
  · rintro ⟨hge, hle, hmod⟩
    exact ⟨(off - base) / 4, by omega, by omega⟩

theorem vicOffset_iff (off : Nat) : VicOffset off ↔ off % 4 = 0 ∧ (off ≤ 0x20 ∨ off = 0x30
    ∨ off = 0x34 ∨ (0x100 ≤ off ∧ off ≤ 0x13C) ∨ (0x200 ≤ off ∧ off ≤ 0x23C)
    ∨ (0xFE0 ≤ off ∧ off ≤ 0xFEC)) := by
  rw [VicOffset, slotOffset_iff rfl, slotOffset_iff rfl]
  simp only [List.mem_cons, List.not_mem_nil, or_false]
  omega

/-- Bits 15:12 of a bus access's key are the bits of its class and direction. -/
theorem getLsbD_head {c off : Nat} (hoff : off < 2 ^ 12) {n : Nat} (hn : n < 4) :
    (BitVec.ofNat 16 (2 ^ 12 * c + off)).getLsbD (12 + n) = c.testBit n := by
  rw [BitVec.getLsbD_ofNat, Nat.testBit_two_pow_mul_add _ hoff, if_neg (by omega),
    Nat.add_sub_cancel_left, decide_eq_true (by omega), Bool.true_and]

theorem timerRows_registers : ∀ r ∈ timerRows, r.mask = 0xFFFF#16 ∧ r.bits.getLsbD 14 = false
    ∧ r.bits.toNat % 4096 ∈ [0x00, 0x04, 0x08, 0x0C] := by decide

theorem vicMaskRows_registers : ∀ r ∈ vicMaskRows, r.mask = 0xFFFF#16 ∧ r.bits.getLsbD 14 = true
    ∧ r.bits.toNat % 4 = 0 ∧ r.bits.toNat % 4096 ≤ 0x1C := by decide

theorem vicVectorRows_registers : ∀ r ∈ vicVectorRows, r.bits.getLsbD 14 = true
    ∧ ((r.mask = 0xFFFF#16 ∧ r.bits.toNat % 4096 ∈ [0x020, 0x030, 0x034])
      ∨ (r.mask = 0xFFC3#16 ∧ ∃ base ∈ [0x4100, 0x5100], r.bits = BitVec.ofNat 16 base)
      ∨ (r.mask = 0xFFC3#16 ∧ ∃ base ∈ [0x4200, 0x5200], r.bits = BitVec.ofNat 16 base)) := by decide

theorem vicIdentRows_registers : ∀ r ∈ vicIdentRows, r.mask = 0xFFFF#16 ∧ r.bits.getLsbD 14 = true
    ∧ r.bits.toNat % 4 = 0 ∧ 0xFE0 ≤ r.bits.toNat % 4096 ∧ r.bits.toNat % 4096 ≤ 0xFEC := by decide

theorem vicPortRows_class : ∀ r ∈ vicPortRows, r.bits.getLsbD 15 = true := by decide

/-- A key that matches a row of a vector table addresses its slot's register. -/
theorem offset_of_slotRow {k : Key} {base : Nat} (hbase : base ∈ [0x4100, 0x5100, 0x4200, 0x5200])
    (hk : k &&& 0xFFC3#16 = BitVec.ofNat 16 base) :
    ∃ i, i < 16 ∧ k.toNat % 4096 = base % 4096 + 4 * i := by
  have hi := keySlot_lt k
  refine ⟨keySlot k, hi, ?_⟩
  rw [eq_slotKey_of_matches hbase hk, BitVec.toNat_ofNat, ← eq_slotKey_of_matches hbase hk]
  simp only [List.mem_cons, List.not_mem_nil, or_false] at hbase
  omega

/-- The offsets a device has a register at. -/
def HasRegister : Device → Nat → Prop
  | .timer => TimerOffset
  | .vic => VicOffset

/-- A bus access's key that matches a row addresses a register of its device. -/
theorem hasRegister_of_matches {k : Key} {r : OpcodeRow} (hr : r ∈ opcodeTable)
    (hk : k &&& r.mask = r.bits) (h15 : k.getLsbD 15 = false) :
    HasRegister (if k.getLsbD 14 then .vic else .timer) (k.toNat % 4096) := by
  have hfixed (hm : r.mask = 0xFFFF#16) : k = r.bits := by
    rw [← hk, hm]
    exact (BitVec.and_allOnes (x := k)).symm
  rw [head_of_matches hr hk (n := 15) rfl] at h15
  rw [head_of_matches hr hk (n := 14) rfl]
  simp only [opcodeTable, List.mem_append] at hr
  obtain (((hr | hr) | hr) | hr) | hr := hr
  case inl.inl.inl.inl =>
    obtain ⟨hm, h14, hoff⟩ := timerRows_registers r hr
    rw [h14, hfixed hm]
    simpa [HasRegister, TimerOffset] using hoff
  case inl.inl.inl.inr =>
    obtain ⟨hm, h14, halign, hle⟩ := vicMaskRows_registers r hr
    rw [h14, hfixed hm]
    exact (vicOffset_iff _).mpr ⟨by omega, .inl (by omega)⟩
  case inl.inl.inr =>
    obtain ⟨h14, ⟨hm, hoff⟩ | ⟨hm, base, hbase, hbits⟩ | ⟨hm, base, hbase, hbits⟩⟩ :=
      vicVectorRows_registers r hr
    all_goals rw [h14]
    · rw [hfixed hm]
      exact .inl (List.mem_append_right
        [0x000, 0x004, 0x008, 0x00C, 0x010, 0x014, 0x018, 0x01C] hoff)
    · rw [hm, hbits] at hk
      have hoffset := offset_of_slotRow (List.mem_append_left [0x4200, 0x5200] hbase) hk
      obtain rfl | rfl := List.mem_pair.mp hbase
      · exact .inr (.inl hoffset)
      · exact .inr (.inl hoffset)
    · rw [hm, hbits] at hk
      have hoffset := offset_of_slotRow (List.mem_append_right [0x4100, 0x5100] hbase) hk
      obtain rfl | rfl := List.mem_pair.mp hbase
      · exact .inr (.inr (.inl hoffset))
      · exact .inr (.inr (.inl hoffset))
  case inl.inr =>
    obtain ⟨hm, h14, halign, hge, hle⟩ := vicIdentRows_registers r hr
    rw [h14, hfixed hm]
    exact (vicOffset_iff _).mpr ⟨by omega, by omega⟩
  case inr =>
    rw [vicPortRows_class r hr] at h15
    cases h15

/-- The fields of a bus access's key: bits 15 and 13 clear, its device's class, and its offset. -/
theorem busKey_fields {dev : Device} {dir : Dir} {off : Nat} {k : Key} (hoff : off ≤ 0xFFF)
    (hk : k = BitVec.ofNat 16 (classOf dev * 16384 + directionOf dir * 4096 + off)) :
    k.getLsbD 15 = false ∧ k.getLsbD 13 = false
      ∧ (if k.getLsbD 14 then Device.vic else Device.timer) = dev ∧ k.toNat % 4096 = off := by
  have hlt : off < 2 ^ 12 := by omega
  have hhead : classOf dev * 16384 + directionOf dir * 4096
      = 2 ^ 12 * (4 * classOf dev + directionOf dir) := by omega
  rw [hhead] at hk
  have hbit {n : Nat} (hn : n < 4) :
      k.getLsbD (12 + n) = (4 * classOf dev + directionOf dir).testBit n :=
    hk ▸ getLsbD_head hlt hn
  have h15 := hbit (n := 3) (by decide)
  have h14 := hbit (n := 2) (by decide)
  have h13 := hbit (n := 1) (by decide)
  have hmod : k.toNat % 4096 = off := by
    rw [hk, BitVec.toNat_ofNat]
    omega
  cases dev <;> cases dir <;> exact ⟨h15, h13, by rw [h14]; rfl, hmod⟩

/-- A word access to an offset without a register is an unmapped access of its device (R66, R68). -/
theorem decode_bus_unmapped {dev : Device} {off : Nat} (dir : Dir) (v : Word)
    (h : ¬ HasRegister dev off) : (Operation.bus dev dir .word off v).decode = .unmapped dev := by
  obtain ⟨hkey, hnokey⟩ := busAccessesHaveTheirKeys dev dir off v
  by_cases hoff : off ≤ 0xFFF
  case neg => exact hnokey (Nat.not_le.mp hoff)
  case pos =>
    obtain ⟨k, hk⟩ : ∃ k, k = BitVec.ofNat 16 (classOf dev * 16384 + directionOf dir * 4096 + off) :=
      ⟨_, rfl⟩
    obtain ⟨h15, h13, hclass, hmod⟩ := busKey_fields hoff hk
    have hnone : ∀ r ∈ opcodeTable, k &&& r.mask ≠ r.bits := by
      intro r hr hmatch
      have hreg := hasRegister_of_matches hr hmatch h15
      rw [hclass, hmod] at hreg
      exact h hreg
    rw [hkey hoff, ← hk, decode_unmatched v hnone, decodeUnmatched_eq, h15, h13, hclass]
    rfl

/-- Settles O23: the access is unmapped, and its rule only reports. -/
theorem unmappedTimerOffsetsAreUnexpected : Obligations.UnmappedTimerOffsetsAreUnexpected := by
  intro s inst now off dir v rest t hp hoff hrun ht hl
  have hstep := step_cons hp
  rw [decode_bus_unmapped (dev := .timer) dir v hoff] at hstep
  refine ⟨fun u hu => hstep.trans ?_, fun kind hk => hstep.trans ?_⟩
  · exact timerAccess_ok hrun ht hl hu rfl
  · exact timerAccess_lazyFatal hrun ht hl hk

/-- Settles O42: the access is unmapped, and a query that ignores the Vic. -/
theorem unmappedVicOffsetsAreUnexpected : Obligations.UnmappedVicOffsetsAreUnexpected := by
  intro s inst now off dir w rest v hp hoff hrun hv
  rw [step_cons hp, decode_bus_unmapped (dev := .vic) dir w hoff]
  exact vicQuery_ok hrun hv

/-! ### Register names (R150) -/

theorem timerRegName_isSome (off : Nat) : (timerRegName off).isSome = true ↔ TimerOffset off := by
  unfold timerRegName TimerOffset
  split_ifs <;> simp [*]

/-- A table of names has a name where its first line that applies gives one. -/
theorem isSome_ite_some {c : Prop} [Decidable c] {n : RegName} {rest : Option RegName} :
    (if c then some n else rest).isSome = true ↔ c ∨ rest.isSome = true := by
  by_cases h : c <;> simp [h]

theorem vicRegName_isSome (off : Nat) : (vicRegName off).isSome = true ↔ VicOffset off := by
  rw [vicOffset_iff, vicRegName]
  by_cases halign : off % 4 = 0
  · rw [if_neg (not_not.mpr halign)]
    simp only [isSome_ite_some, Option.isSome_none, Bool.false_eq_true, or_false]
    omega
  · simp [halign]

theorem vicRegName_slot {i : Nat} (hi : i < 16) :
    vicRegName (0x100 + 4 * i) = some (.vectAddrSlot i)
      ∧ vicRegName (0x200 + 4 * i) = some (.vectCntlSlot i) := by
  have all : ∀ i : Fin 16, vicRegName (0x100 + 4 * i) = some (.vectAddrSlot i)
      ∧ vicRegName (0x200 + 4 * i) = some (.vectCntlSlot i) := by decide
  exact all ⟨i, hi⟩

/-- Settles O60, by the two name tables. -/
theorem nameQueriesChangeNothing : Obligations.NameQueriesChangeNothing := by
  refine ⟨fun s inst now off dev rest hp hrun => ?query, timerRegName_isSome, vicRegName_isSome,
    by decide, fun i hi => vicRegName_slot hi⟩
  case query =>
    rw [step_cons hp]
    exact if_neg (by simp [hrun])

end Sys2Proof.Proofs
end

section
/-! PROOFS. What every step keeps: the ranges of the Timers' fields, and the shape of the instances
(spec/10_state.md R19 to R22, spec/70_reset_and_hazards.md R164). -/

namespace Sys2Proof.Proofs

open Sys2Proof Sys2Proof.Machine Sys2Proof.Certificates

/-! ### Ranges of one Timer -/

/-- The load value, if there is one, is within the wrap mask. -/
theorem timer_wf_iff (t : Timer) : t.wf = true ↔ t.value ≤ wrapMask t.bits
    ∧ (∀ n, t.load = some n → n ≤ wrapMask t.bits) ∧ t.frac < microticksPerTick := by
  cases h : t.load <;> simp [Timer.wf, h, and_assoc]

theorem loadField_le (w : Width) (v : Word) : loadField w v ≤ wrapMask w := Nat.and_le_right

/-- The largest value of a counter is one less than their number. -/
theorem wrapMask_add_one (w : Width) : wrapMask w + 1 = counterSize w := by cases w <;> rfl

theorem counterSize_pos (w : Width) : (0 : Int) < counterSize w := by cases w <;> decide

theorem freeRunningStep_lt (w : Width) (value ticks : Nat) :
    freeRunningStep w value ticks < counterSize w := by
  rw [freeRunningStep_eq]
  have := Int.emod_lt_of_pos ((value : Int) - ticks) (counterSize_pos w)
  have := Int.emod_nonneg ((value : Int) - ticks) (counterSize_pos w).ne'
  omega

/-- A periodic step counts down, or lands below the load value. -/
theorem periodicStep_le {load : Option Nat} {value ticks x m : Nat} (hvalue : value ≤ m)
    (hload : ∀ n, load = some n → n ≤ m) (h : periodicStep load value ticks = .ok x) : x ≤ m := by
  unfold periodicStep at h
  split at h
  · cases h; omega
  split at h
  · cases h
  rename_i l
  have hl := hload l rfl
  dsimp only at h
  split at h
  · cases h
  split at h
  · cases h; omega
  · cases h; omega

theorem countDown_le {t : Timer} {ticks x : Nat} (hvalue : t.value ≤ wrapMask t.bits)
    (hload : ∀ n, t.load = some n → n ≤ wrapMask t.bits) (h : countDown t ticks = .ok x) :
    x ≤ wrapMask t.bits := by
  cases hm : t.mode
  · rw [countDown_freeRunning hm] at h
    cases h
    have := freeRunningStep_lt t.bits t.value ticks
    rw [← wrapMask_add_one] at this
    omega
  · rw [countDown_periodic hm] at h
    exact periodicStep_le hvalue hload h

theorem lazyUpdate_wf {now : Nat} {t u : Timer} (h : lazyUpdate now t = .ok u) (ht : t.wf = true) :
    u.wf = true := by
  rw [timer_wf_iff] at ht ⊢
  obtain ⟨hvalue, hload, hfrac⟩ := ht
  obtain ⟨-, rfl⟩ | ⟨-, x, hx, rfl⟩ := lazyUpdate_ok h
  · exact ⟨hvalue, hload, hfrac⟩
  · exact ⟨countDown_le (t := t) hvalue hload hx, hload, Nat.mod_lt _ (by decide)⟩

theorem loaded_wf {t : Timer} (v : Word) (ht : t.wf = true) :
    ({ t with load := some (loadField t.bits v), value := loadField t.bits v } : Timer).wf = true := by
  rw [timer_wf_iff] at ht ⊢
  obtain ⟨-, -, hfrac⟩ := ht
  exact ⟨loadField_le t.bits v, fun n hn => Option.some.inj hn ▸ loadField_le t.bits v, hfrac⟩

theorem controlWrite_wf {t : Timer} (v : Word) (ht : t.wf = true) : (controlWrite v t).wf = true := by
  rw [timer_wf_iff] at ht ⊢
  obtain ⟨hvalue, hload, hfrac⟩ := ht
  refine ⟨hvalue, fun n hn => ?_, ?_⟩
  · rw [controlWrite_load] at hn
    split at hn
    · cases hn
    · exact hload n hn
  · rw [controlWrite_frac]
    split
    · decide
    · exact hfrac

/-! ### Ranges of a state -/

theorem sound_iff (s : State) :
    s.Sound ↔ (s.halted = false → ∀ t ∈ s.timers, t.wf = true) := by
  cases h : s.halted <;> simp [State.Sound, State.wf, h]

theorem sound_of_halted {s : State} (h : s.halted = true) : s.Sound := by
  simp [State.Sound, State.wf, h]

theorem timer_wf_of_sound {s : State} {t : Timer} (hs : s.Sound) (hrun : s.halted = false)
    (ht : s.timers[s.inst]? = some t) : t.wf = true :=
  (sound_iff s).mp hs hrun t (List.mem_of_getElem? ht)

/-- Putting a Timer within its ranges in place of another keeps the others. -/
theorem sound_putTimer {s : State} {w : Timer} (r : Response) (hs : s.Sound) (hw : w.wf = true) :
    ((s.putTimer w).respond r).Sound := by
  rw [sound_iff] at hs ⊢
  intro hrun t ht
  obtain ht | rfl := List.mem_or_eq_of_mem_set ht
  · exact hs hrun t ht
  · exact hw

theorem exec_sound {i : Instr} {s s' : State} (h : exec i s = .next s') (hs : s.Sound) :
    s'.Sound := by
  have hrun := exec_next_running h
  obtain ⟨-, t, ht, -, ⟨kind, rfl⟩ | ⟨u, w, o, hu, hw, rfl⟩⟩ |
    ⟨-, v, -, ⟨r, rfl⟩ | ⟨v', r, -, rfl⟩⟩ := exec_next_cases h
  · exact sound_of_halted rfl
  · have huwf := lazyUpdate_wf hu (timer_wf_of_sound hs hrun ht)
    refine sound_putTimer _ hs ?_
    obtain ⟨rfl, -, -⟩ | ⟨v, -, -, -, rfl⟩ | ⟨v, -, -, rfl⟩ := hw
    · exact huwf
    · exact loaded_wf v huwf
    · exact controlWrite_wf v huwf
  · exact hs
  · exact hs

/-- Settles O54: an operation keeps the ranges, and the step's other effects are a report, a halted
run and a lazy update. -/
theorem stepKeepsTheTimerRanges : Obligations.StepKeepsTheTimerRanges := by
  intro s s' hs h
  cases hp : s.pending with
  | nil => rw [step_empty hp] at h; cases h
  | cons r rest =>
    have haccept : (s.accept r rest).Sound := hs
    refine step_next_of (P := fun s s' => s.Sound → s'.Sound) (fun i s s' => exec_sound) ?_ ?_ ?_
      hp h haccept
    · intro s r _ hs
      exact hs
    · intro s t kind _ _ _
      exact sound_of_halted rfl
    · intro s t u r hrun ht _ hu hs
      exact sound_putTimer r hs (lazyUpdate_wf hu (timer_wf_of_sound hs hrun ht))

/-- Settles O55: a constructed Timer has its drawn value, no load value and the fraction 0. -/
theorem constructionHasTheTimerRanges : Obligations.ConstructionHasTheTimerRanges := by
  have hconstruct (p : Platform) (hp : Platform.wf p = true) : (State.construct p).Sound := by
    rw [sound_iff]
    rintro - t ht
    obtain ⟨q, hq, rfl⟩ := List.mem_map.mp ht
    have hvalue : q.resetValue ≤ wrapMask q.bits := of_decide_eq_true (List.all_eq_true.mp hp q hq)
    exact (timer_wf_iff _).mpr ⟨hvalue, by simp [newTimer], show 0 < microticksPerTick by decide⟩
  exact ⟨hconstruct, hconstruct Config.platform (by decide)⟩

/-! ### Shape of the instances (R20, R151) -/

/-- The widths of the Timers in their places, and the number of Vics, are those of `s`. -/
def SameShape (s s' : State) : Prop :=
  s'.timers.map (fun t => t.bits) = s.timers.map (fun t => t.bits) ∧ s'.vics.length = s.vics.length

theorem map_bits_set {ts : List Timer} {k : Nat} {t w : Timer} (ht : ts[k]? = some t)
    (hw : w.bits = t.bits) : (ts.set k w).map (fun t => t.bits) = ts.map (fun t => t.bits) := by
  have hk : (ts.map fun t => t.bits)[k]? = some t.bits := by simp [ht]
  obtain ⟨hlt, hget⟩ := List.getElem?_eq_some_iff.mp hk
  rw [List.map_set, hw, ← hget, List.set_getElem_self]

theorem lazyUpdate_bits {now : Nat} {t u : Timer} (h : lazyUpdate now t = .ok u) :
    u.bits = t.bits := (lazyUpdate_frame h).1

theorem exec_sameShape {i : Instr} {s s' : State} (h : exec i s = .next s') : SameShape s s' := by
  obtain ⟨-, t, ht, -, ⟨kind, rfl⟩ | ⟨u, w, o, hu, hw, rfl⟩⟩ |
    ⟨-, v, -, ⟨r, rfl⟩ | ⟨v', r, -, rfl⟩⟩ := exec_next_cases h
  · exact ⟨map_bits_set ht rfl, rfl⟩
  · refine ⟨map_bits_set ht ?_, rfl⟩
    rw [← lazyUpdate_bits hu]
    obtain ⟨rfl, -, -⟩ | ⟨v, -, -, -, rfl⟩ | ⟨v, -, -, rfl⟩ := hw <;> rfl
  · exact ⟨rfl, rfl⟩
  · exact ⟨rfl, List.length_set⟩

/-- Settles O53: whatever replaces a Timer has its width, and a Vic is only ever replaced. -/
theorem instancesKeepTheirShape : Obligations.InstancesKeepTheirShape := by
  intro s s' h
  cases hp : s.pending with
  | nil => rw [step_empty hp] at h; cases h
  | cons r rest =>
    refine step_next_of (P := SameShape) (fun i s s' => exec_sameShape) ?_ ?_ ?_ hp h
    · intro s r _
      exact ⟨rfl, rfl⟩
    · intro s t kind _ ht
      exact ⟨map_bits_set ht rfl, rfl⟩
    · intro s t u r _ ht _ hu
      exact ⟨map_bits_set ht (lazyUpdate_bits hu), rfl⟩

/-! ### The constructed Timer (R153) -/

theorem controlWord_eq_zero_iff (t : Timer) :
    controlWord t = 0 ↔ t.clksel = .k2 ∧ t.mode = .freeRunning ∧ t.enabled = false := by
  unfold controlWord
  cases t.clksel <;> cases t.mode <;> cases t.enabled <;> decide

/-- Settles O57: construction maps each Timer's parameters to `newTimer`, which is disabled. -/
theorem timersAreConstructedDisabled : Obligations.TimersAreConstructedDisabled := by
  intro p k q hq
  have ht : (State.construct p).timers[k]? = some (newTimer q p.now0) := by
    simp [State.construct, hq]
  refine ⟨newTimer q p.now0, ht, rfl, ?_, rfl⟩
  rw [controlWord_eq_zero_iff]
  simp [newTimer, and_comm]

end Sys2Proof.Proofs
end

section
/-! PROOFS. How often a Timer is sampled does not matter: the lazy update in stages
(spec/40_timer.md R78, R79, spec/70_reset_and_hazards.md R162, R163, R165). -/

namespace Sys2Proof.Proofs

open Sys2Proof Sys2Proof.Machine Sys2Proof.Certificates

/-! ### The periodic step, by its branches (R79) -/

section PeriodicStep
variable {load : Option Nat} {value ticks l : Nat}

theorem periodicStep_of_le (h : ticks ≤ value) :
    periodicStep load value ticks = .ok (value - ticks) := if_pos h

theorem periodicStep_none (h : value < ticks) :
    periodicStep none value ticks = .error .reloadUnset := if_neg (Nat.not_le.mpr h)

theorem periodicStep_zero (h : value < ticks) :
    periodicStep (some 0) value ticks = .error .reloadZeroLoad := if_neg (Nat.not_le.mpr h)

/-- Past the wrap both branches of the formula are one: an excess `e` up to `l` is `e - 1` ticks down
from `l - 1`, and a larger one takes out whole rounds of `l` ticks first. -/
theorem periodicStep_wrap (hl : 0 < l) (h : value < ticks) :
    periodicStep (some l) value ticks = .ok (l - 1 - (ticks - value - 1) % l) := by
  simp only [periodicStep, if_neg (Nat.not_le.mpr h), if_neg hl.ne']
  split
  · rename_i he
    rw [Nat.mod_eq_of_lt (by omega), Nat.sub_sub,
      show 1 + (ticks - value - 1) = ticks - value by omega]
  · rfl

/-- A periodic step is fatal exactly when it wraps with no load value, or with 0. -/
theorem periodicStep_error_iff {kind : FatalKind} : periodicStep load value ticks = .error kind ↔
    value < ticks ∧ ((load = none ∧ kind = .reloadUnset)
      ∨ (load = some 0 ∧ kind = .reloadZeroLoad)) := by
  by_cases h : ticks ≤ value
  · simp [periodicStep_of_le h, Nat.not_lt.mpr h]
  have hlt : value < ticks := Nat.not_le.mp h
  rcases load with _ | _ | l
  · simp [periodicStep_none hlt, hlt, eq_comm]
  · simp [periodicStep_zero hlt, hlt, eq_comm]
  · simp [periodicStep_wrap (Nat.succ_pos l) hlt]

end PeriodicStep

/-- Settles O11, by the branches; up to one round the two forms of the wrap agree. -/
theorem periodicStepFollowsItsFormula : Obligations.PeriodicStepFollowsItsFormula := by
  intro load value ticks
  refine ⟨periodicStep_of_le, fun h hnone => hnone ▸ periodicStep_none h,
    fun h hzero => hzero ▸ periodicStep_zero h, ?oneRound, ?rounds⟩
  case oneRound =>
    rintro l e hl rfl rfl he hel
    rw [periodicStep_wrap hl (by omega), Nat.mod_eq_of_lt (by omega)]
    congr 1
    omega
  case rounds =>
    rintro l e hl rfl rfl hle
    rw [periodicStep_wrap hl (by omega), Nat.add_sub_cancel_left]

/-! ### Counting down in stages -/

/-- `n` periodic steps of one tick are one periodic step of `n` ticks. -/
theorem periodicStep_eq_iterate {l : Nat} (hl : 0 < l) (x n : Nat) :
    periodicStep (some l) x n = .ok ((oneTick l)^[n] x) := by
  induction n with
  | zero => rw [periodicStep_of_le (Nat.zero_le x)]; rfl
  | succ n ih =>
    rw [Function.iterate_succ_apply']
    by_cases hle : n ≤ x
    · rw [periodicStep_of_le hle, Except.ok.injEq] at ih
      rw [← ih, oneTick]
      by_cases hlt : n < x
      · rw [periodicStep_of_le hlt, if_neg (by omega), Nat.sub_sub]
      · rw [periodicStep_wrap hl (by omega), if_pos (by omega),
          show n + 1 - x - 1 = 0 by omega, Nat.zero_mod, Nat.sub_zero]
    · have hlt : x < n := Nat.not_le.mp hle
      rw [periodicStep_wrap hl hlt, Except.ok.injEq] at ih
      rw [← ih, periodicStep_wrap hl (by omega), oneTick,
        show n + 1 - x - 1 = (n - x - 1) + 1 by omega, ← Nat.mod_add_mod]
      have hmod := Nat.mod_lt (n - x - 1) hl
      generalize (n - x - 1) % l = e at hmod ⊢
      by_cases hround : e + 1 = l
      · rw [if_pos (by omega), hround, Nat.mod_self, Nat.sub_zero]
      · rw [if_neg (by omega), Nat.mod_eq_of_lt (by omega), Nat.sub_sub _ e]

theorem periodicStep_add (load : Option Nat) (x a b : Nat) :
    (periodicStep load x a).bind (fun y => periodicStep load y b) = periodicStep load x (a + b) := by
  by_cases hpos : ∃ l, load = some l ∧ 0 < l
  · obtain ⟨l, rfl, hl⟩ := hpos
    rw [periodicStep_eq_iterate hl, periodicStep_eq_iterate hl, Nat.add_comm,
      Function.iterate_add_apply]
    exact periodicStep_eq_iterate hl _ b
  have hfatal : ∃ kind, ∀ x ticks, x < ticks → periodicStep load x ticks = .error kind := by
    rcases load with _ | _ | l
    · exact ⟨_, fun _ _ => periodicStep_none⟩
    · exact ⟨_, fun _ _ => periodicStep_zero⟩
    · exact absurd ⟨_, rfl, Nat.succ_pos l⟩ hpos
  obtain ⟨kind, hkind⟩ := hfatal
  by_cases ha : a ≤ x
  · rw [periodicStep_of_le ha]
    show periodicStep load (x - a) b = _
    by_cases hab : a + b ≤ x
    · rw [periodicStep_of_le hab, periodicStep_of_le (by omega), Nat.sub_sub]
    · rw [hkind x _ (by omega), hkind _ b (by omega)]
  · rw [hkind x a (by omega), hkind x (a + b) (by omega)]
    rfl

theorem freeRunningStep_add (w : Width) (x a b : Nat) :
    freeRunningStep w (freeRunningStep w x a) b = freeRunningStep w x (a + b) := by
  rw [freeRunningStep_eq w x a, freeRunningStep_eq, freeRunningStep_eq,
    Int.toNat_of_nonneg (Int.emod_nonneg _ (counterSize_pos w).ne'), Int.emod_sub_emod,
    Nat.cast_add, Int.sub_sub]

theorem countDown_add (t : Timer) (a b : Nat) :
    (countDown t a).bind (fun x => countDown { t with value := x } b) = countDown t (a + b) := by
  cases hm : t.mode <;> simp only [countDown, hm]
  · exact congrArg Except.ok (freeRunningStep_add t.bits t.value a b)
  · exact periodicStep_add t.load t.value a b

/-! ### The lazy update in two stages (R163) -/

/-- The remainder of the first stage is what the second needs, so the whole ticks add. -/
theorem ticks_add (d f : Nat) :
    f / microticksPerTick + (d + f % microticksPerTick) / microticksPerTick
        = (d + f) / microticksPerTick
      ∧ (d + f % microticksPerTick) % microticksPerTick = (d + f) % microticksPerTick := by
  unfold microticksPerTick
  omega

theorem microticks_later {t : Timer} {t1 t2 x : Nat} (h1 : t.last ≤ t1) (h2 : t1 ≤ t2) :
    microticks t2 { t with value := x, frac := microticks t1 t % microticksPerTick, last := t1 }
        = (t2 - t1) * clockKhz t.clksel + microticks t1 t % microticksPerTick
      ∧ microticks t2 t = (t2 - t1) * clockKhz t.clksel + microticks t1 t := by
  refine ⟨rfl, ?_⟩
  rw [microticks, microticks, ← Nat.add_assoc, ← Nat.add_mul,
    show t2 - t1 + (t1 - t.last) = t2 - t.last by omega]

/-- An enabled Timer's lazy update, as a function of its countdown. -/
theorem lazyUpdate_eq_map {now : Nat} {t : Timer} (h : t.enabled = true) :
    lazyUpdate now t = (countDown t (microticks now t / microticksPerTick)).map fun x =>
      { t with value := x, frac := microticks now t % microticksPerTick, last := now } := by
  rw [lazyUpdate, if_pos h]
  cases countDown t (microticks now t / microticksPerTick) <;> rfl

theorem lazyUpdate_bind {t : Timer} {t1 t2 : Nat} (h1 : t.last ≤ t1) (h2 : t1 ≤ t2) :
    (lazyUpdate t1 t).bind (lazyUpdate t2) = lazyUpdate t2 t := by
  cases he : t.enabled
  · rw [lazyUpdate_disabled he, lazyUpdate_disabled he]
    exact lazyUpdate_disabled he
  rw [lazyUpdate_eq_map he, lazyUpdate_eq_map he, (microticks_later (x := 0) h1 h2).2,
    ← (ticks_add _ _).1, ← (ticks_add _ _).2, ← countDown_add]
  cases hx : countDown t (microticks t1 t / microticksPerTick) with
  | error kind => rfl
  | ok x => exact lazyUpdate_eq_map (t := { t with value := x, frac := _, last := t1 }) he

/-- Settles O12: the lazy update in two stages, and its three parts. -/
theorem lazyUpdateIsSamplingIndependent : Obligations.LazyUpdateIsSamplingIndependent := by
  refine ⟨fun t t1 t2 => lazyUpdate_bind, fun a b k f => ?quotients, freeRunningStep_add,
    fun l x n hl => periodicStep_eq_iterate hl x n⟩
  case quotients =>
    refine (ticks_add (b * k) (a * k + f)).1.trans ?_
    rw [microticksPerTick, ← Nat.add_assoc, ← Nat.add_mul, Nat.add_comm b a]

/-! ### Rates (R162) -/

theorem freeRunningStep_modEq (w : Width) (x n : Nat) :
    (freeRunningStep w x n + n) % counterSize w = x % counterSize w := by
  zify
  rw [freeRunningStep_eq, Int.toNat_of_nonneg (Int.emod_nonneg _ (counterSize_pos w).ne'),
    Int.emod_add_emod, Int.sub_add_cancel]

/-- What a lazy update of an enabled free-running Timer leaves. -/
theorem lazyUpdate_freeRunning {t u : Timer} {now : Nat} (he : t.enabled = true)
    (hm : t.mode = .freeRunning) (h : lazyUpdate now t = .ok u) :
    u.value = freeRunningStep t.bits t.value (microticks now t / microticksPerTick)
      ∧ u.frac = microticks now t % microticksPerTick := by
  rw [lazyUpdate_enabled he (countDown_freeRunning hm _)] at h
  cases h
  exact ⟨rfl, rfl⟩

theorem microticks_elapsed (t : Timer) (d : Nat) :
    microticks (t.last + d) t = d * clockKhz t.clksel + t.frac := by
  rw [microticks, Nat.add_sub_cancel_left]

/-- Settles O15: a fraction below one tick adds at most one tick, and at 2 kHz `n` ticks are
`n * 500000` ns exactly. -/
theorem decrementIsWithinOneTick : Obligations.DecrementIsWithinOneTick := by
  constructor
  · intro t u d he hm hfrac h
    obtain ⟨hvalue, -⟩ := lazyUpdate_freeRunning he hm h
    rw [microticks_elapsed] at hvalue
    refine ⟨(d * clockKhz t.clksel + t.frac) / 1000000, by omega, by omega, rfl, ?_, ?_⟩
    · rw [hvalue]
      exact freeRunningStep_lt _ _ _
    · rw [hvalue]
      exact freeRunningStep_modEq _ _ _
  · intro t u n he hm hclk hfrac h
    obtain ⟨hvalue, hrest⟩ := lazyUpdate_freeRunning he hm h
    have hticks : microticks (t.last + n * 500000) t = n * microticksPerTick + t.frac := by
      rw [microticks_elapsed, hclk, Nat.mul_assoc]
      rfl
    have hpos : 0 < microticksPerTick := by decide
    change t.frac < microticksPerTick at hfrac
    rw [hticks, Nat.mul_comm n, Nat.mul_add_div hpos, Nat.div_eq_of_lt hfrac, Nat.add_zero] at hvalue
    rw [hticks, Nat.mul_comm n, Nat.mul_add_mod, Nat.mod_eq_of_lt hfrac] at hrest
    refine ⟨?_, hrest⟩
    rw [hvalue]
    exact freeRunningStep_modEq _ _ _

/-! ### Enabling (R165) -/

theorem exec_tmrCtrlWr (v : Word) (s : State) :
    exec (.tmrCtrlWr v) s = timerAccess (fun t => .ok (controlWrite v t, .okWrite)) s := rfl

/-- Settles O14: the enabling write leaves fraction 0 and its own time, so that only the elapsed time
counts afterwards. -/
theorem enablingClearsTheFraction : Obligations.EnablingClearsTheFraction := by
  intro s t v hrun ht hl hoff hbit
  have hready : TimerReady s t { t with last := s.now } := ⟨hrun, ht, hl, lazyUpdate_disabled hoff⟩
  have hen : controlEnable v = true := hbit
  obtain ⟨w, hw⟩ : ∃ w, w = controlWrite v { t with last := s.now } := ⟨_, rfl⟩
  have henabled : w.enabled = true := hw ▸ hbit
  have hfrac : w.frac = 0 := by simp [hw, hoff, hen]
  have hlast : w.last = s.now := by simp [hw]
  have hvalue : w.value = t.value := by simp [hw]
  have hload : w.load = t.load := by simp [hw, hoff]
  have hbits : w.bits = t.bits := by simp [hw]
  refine ⟨w, ?_, henabled, hfrac, hlast, hvalue, hload, fun d => ?_⟩
  · rw [exec_tmrCtrlWr, hw]
    exact timerAccess_of_ready hready rfl
  have hticks : microticks (s.now + d) w / microticksPerTick = d * clockKhz w.clksel / 1000000 := by
    rw [← hlast, microticks_elapsed, hfrac, Nat.add_zero, microticksPerTick]
  refine ⟨fun hm => ?freeRunning, fun hm x hx => ?periodic⟩
  case freeRunning =>
    refine ⟨_, lazyUpdate_enabled henabled (countDown_freeRunning hm _), ?_⟩
    rw [hticks, freeRunningStep_eq, hvalue, hbits]
  case periodic =>
    rw [← hticks, ← hload, ← hvalue, ← countDown_periodic hm] at hx
    exact ⟨_, lazyUpdate_enabled henabled hx, rfl⟩

end Sys2Proof.Proofs
end

section
/-! PROOFS. The Timer's operations: each register's rule, the fatal ends, sampling, and what a program
can observe (spec/40_timer.md R80 to R88, spec/20_memory.md R52, spec/60_exceptions.md R136, R137,
spec/10_state.md R29). -/

namespace Sys2Proof.Proofs

open Sys2Proof Sys2Proof.Machine Sys2Proof.Certificates

/-! ### The register operations (R80 to R87) -/

section Registers
variable (v : Word) (s : State)

theorem exec_tmrLoadRd : exec .tmrLoadRd s = timerAccess loadReadRule s := rfl
theorem exec_tmrLoadWr : exec (.tmrLoadWr v) s = timerAccess (loadWriteRule v) s := rfl
theorem exec_tmrValueWr :
    exec (.tmrValueWr v) s = timerAccess (fun u => .ok (u, .invalidAccess)) s := rfl
theorem exec_tmrCtrlRd :
    exec .tmrCtrlRd s = timerAccess (fun u => .ok (u, .okRead (controlWord u))) s := rfl
theorem exec_tmrClearRd : exec .tmrClearRd s = timerAccess (fun u => .ok (u, .unimplemented)) s := rfl
theorem exec_tmrClearWr :
    exec (.tmrClearWr v) s = timerAccess (fun u => .ok (u, .unimplemented)) s := rfl

end Registers

/-- A Timer access that reaches a fatal rule halts the run. -/
theorem timerAccess_of_ready_fatal {rule : Timer → Except FatalKind (Timer × AccessOutcome)}
    {s : State} {t u : Timer} {kind : FatalKind} (h : TimerReady s t u) (hk : rule u = .error kind) :
    timerAccess rule s = .next (haltedBy s t kind) := by
  obtain ⟨hrun, ht, hl, hu⟩ := h
  exact timerAccess_ruleFatal hrun ht hl hu hk

/-- The masked word of a Load write is its remainder by the counter's size (R81). -/
theorem loadField_eq (w : Width) (v : Word) : loadField w v = v.toNat % counterSize w := by
  rw [loadField, wrapMask, Nat.and_two_pow_sub_one_eq_mod, two_pow_widthBits]

/-- Settles O16: the load value decides between the rule's two outcomes. -/
theorem loadReadReturnsTheLoadOrIsFatal : Obligations.LoadReadReturnsTheLoadOrIsFatal := by
  refine ⟨fun d => ?keys, fun s t u h => ⟨fun n hn => ?loaded, fun hnone => ?unset⟩⟩
  case keys => simp [decode, opcodeTable, timerRows, OpcodeRow.selects]
  case loaded =>
    rw [exec_tmrLoadRd]
    exact timerAccess_of_ready h (loadReadRule_ok.mpr ⟨rfl, n, hn, rfl⟩)
  case unset =>
    rw [exec_tmrLoadRd]
    exact timerAccess_of_ready_fatal h ((loadReadRule_error u _).mpr ⟨rfl, hnone⟩)

/-- Settles O17: whether the Timer is enabled decides between the rule's two outcomes. -/
theorem loadWriteSetsLoadAndValue : Obligations.LoadWriteSetsLoadAndValue := by
  refine ⟨fun v => ?keys, fun s t u v h => ⟨fun hoff => ?disabled, fun hon => ?enabled⟩⟩
  case keys => simp [decode, opcodeTable, timerRows, OpcodeRow.selects]
  case disabled =>
    rw [exec_tmrLoadWr, ← loadField_eq]
    exact timerAccess_of_ready h (loadWriteRule_ok.mpr ⟨hoff, rfl, rfl⟩)
  case enabled =>
    rw [exec_tmrLoadWr]
    exact timerAccess_of_ready_fatal h ((loadWriteRule_error v u _).mpr ⟨rfl, hon⟩)

/-- Settles O19: the rule ignores the word and leaves the Timer. -/
theorem valueWriteIsInvalidAccess : Obligations.ValueWriteIsInvalidAccess := by
  refine ⟨fun v => ?keys, fun s t u v h => ?invalid⟩
  case keys => simp [decode, opcodeTable, timerRows, OpcodeRow.selects]
  case invalid =>
    rw [exec_tmrValueWr]
    exact timerAccess_of_ready h rfl

theorem controlWord_eq (u : Timer) : controlWord u
    = (if u.clksel = .k508 then BitVec.twoPow 32 3 else 0)
      ||| (if u.mode = .periodic then BitVec.twoPow 32 6 else 0)
      ||| (if u.enabled then BitVec.twoPow 32 7 else 0) := by
  unfold controlWord
  cases u.clksel <;> cases u.mode <;> rfl

/-- The bits of the Control word (R84). -/
theorem getLsbD_controlWord (u : Timer) (n : Nat) : (controlWord u).getLsbD n
    = ((decide (3 = n) && decide (u.clksel = .k508)) || (decide (6 = n) && decide (u.mode = .periodic))
      || (decide (7 = n) && u.enabled)) := by
  have hbit (c : Bool) {k : Nat} (hk : k < 32) :
      (if c then BitVec.twoPow 32 k else 0).getLsbD n = (decide (k = n) && c) := by
    cases c <;> simp [BitVec.getLsbD_twoPow, hk]
  rw [controlWord_eq, BitVec.getLsbD_or, BitVec.getLsbD_or, ← hbit u.enabled (by decide),
    ← hbit (decide (u.clksel = .k508)) (by decide), ← hbit (decide (u.mode = .periodic)) (by decide)]
  simp only [decide_eq_true_eq]

/-- Settles O20, by the bits of the Control word. -/
theorem controlReadPacksTheFields : Obligations.ControlReadPacksTheFields := by
  refine ⟨fun d => ?keys, fun s t u h => ⟨controlWord u, ?read, ?_, ?_, ?_, fun n h3 h6 h7 => ?_⟩⟩
  case keys => simp [decode, opcodeTable, timerRows, OpcodeRow.selects]
  case read =>
    rw [exec_tmrCtrlRd]
    exact timerAccess_of_ready h rfl
  all_goals rw [getLsbD_controlWord]
  · simp
  · simp
  · simp
  · simp [h3.symm, h6.symm, h7.symm]

/-- Settles O21, by the fields of `controlWrite`. -/
theorem controlWriteSetsTheFields : Obligations.ControlWriteSetsTheFields := by
  refine ⟨fun v => ?keys, fun s t u v h => ⟨controlWrite v u, ?write, rfl, rfl, rfl,
    fun hoff hon => ?enables, fun hon hoff => ?disables, fun hsame => ?stays, rfl, rfl, rfl⟩⟩
  case keys => simp [decode, opcodeTable, timerRows, OpcodeRow.selects]
  case write =>
    rw [exec_tmrCtrlWr]
    exact timerAccess_of_ready h rfl
  all_goals rw [controlWrite_frac, controlWrite_load, controlEnable]
  case enables => simp only [hoff, hon]; exact ⟨rfl, rfl⟩
  case disables => simp only [hoff, hon]; exact ⟨rfl, rfl⟩
  case stays => rw [hsame]; cases v.getLsbD 7 <;> exact ⟨rfl, rfl⟩

/-- Settles O22: both rules ignore the word and leave the Timer. -/
theorem clearIsUnimplemented : Obligations.ClearIsUnimplemented := by
  refine ⟨fun d => ?keysRead, fun v => ?keysWrite, fun s t u h => ⟨?read, fun v => ?write⟩⟩
  case keysRead | keysWrite => simp [decode, opcodeTable, timerRows, OpcodeRow.selects]
  case read =>
    rw [exec_tmrClearRd]
    exact timerAccess_of_ready h rfl
  case write =>
    rw [exec_tmrClearWr]
    exact timerAccess_of_ready h rfl

/-- Settles O24: every Timer operation runs the prologue, which looks at the clock first. -/
theorem noTimerStepWhenTheClockGoesBack : Obligations.NoTimerStepWhenTheClockGoesBack := by
  intro i s t hd hrun ht hl
  obtain ⟨rule, e, -⟩ := exec_timer hd
  rw [e]
  exact timerAccess_clockWentBack hrun ht hl

/-! ### Halted runs and fatal ends (R136, R137) -/

/-- Settles O25: both prologues look at the mark first, and a next state was answered by a run not
halted. -/
theorem noStepOnceHalted : Obligations.NoStepOnceHalted := by
  refine ⟨fun i s hwf hhalt => ?operation, fun s t hhalt h => ?request⟩
  case operation =>
    cases hd : i.device
    · obtain ⟨rule, e, -⟩ := exec_timer hd
      rw [e, timerAccess_halted hhalt]
    · obtain ⟨answer, e⟩ | ⟨edit, r, -, e⟩ := exec_vic hd hwf
      · rw [e, vicQuery_halted hhalt]
      · rw [e, vicUpdate_halted hhalt]
  case request =>
    cases hp : s.pending with
    | nil => rw [step_empty hp] at h; cases h
    | cons r rest =>
      have hrun : s.halted = false :=
        step_next_of (P := fun s _ => s.halted = false) (fun i s s' => exec_next_running)
          (fun s r hrun => hrun) (fun s t kind hrun _ => hrun) (fun s t u r hrun _ _ _ => hrun) hp h
      rw [hhalt] at hrun
      cases hrun

/-- A Vic operation never halts the run. -/
theorem exec_vic_running {i : Instr} {s s' : State} (hd : i.device = .vic) (h : exec i s = .next s') :
    s'.halted = false := by
  have hrun := exec_next_running h
  obtain ⟨hd', -⟩ | ⟨-, v, -, ⟨r, rfl⟩ | ⟨v', r, -, rfl⟩⟩ := exec_next_cases h
  · rw [hd] at hd'; cases hd'
  · exact hrun
  · exact hrun

/-- The report of a fatal end names its kind. -/
theorem kind_of_haltedBy {s : State} {t t' : Timer} {kind kind' : FatalKind}
    (h : haltedBy s t kind = s.raiseFatal t' kind') : kind' = kind := by
  have hresponse : Response.access (.fatal kind) = .access (.fatal kind') := congrArg State.response h
  cases hresponse
  rfl

/-- A Timer access ends fatally exactly when its lazy update or its rule does. -/
theorem timerAccess_fatal_iff {rule : Timer → Except FatalKind (Timer × AccessOutcome)} {s : State}
    {t : Timer} {kind : FatalKind} (hrun : s.halted = false) (ht : s.timers[s.inst]? = some t)
    (hl : t.last ≤ s.now) : timerAccess rule s = .next (haltedBy s t kind) ↔
      lazyUpdate s.now t = .error kind ∨ ∃ u, lazyUpdate s.now t = .ok u ∧ rule u = .error kind := by
  constructor
  · intro h
    obtain ⟨-, t', ht', -, ⟨k, hk, hs⟩ | ⟨u, hu, ⟨k, hk, hs⟩ | ⟨w, o, -, hs⟩⟩⟩ := timerAccess_next h
    all_goals obtain rfl : t' = t := Option.some.inj (ht'.symm.trans ht)
    · exact .inl (kind_of_haltedBy hs ▸ hk)
    · exact .inr ⟨u, hu, kind_of_haltedBy hs ▸ hk⟩
    · have hhalt : true = s.halted := congrArg State.halted hs
      rw [hrun] at hhalt
      cases hhalt
  · rintro (hk | ⟨u, hu, hk⟩)
    · exact timerAccess_lazyFatal hrun ht hl hk
    · exact timerAccess_ruleFatal hrun ht hl hu hk

theorem lazyUpdate_error_iff {now : Nat} {t : Timer} {kind : FatalKind} :
    lazyUpdate now t = .error kind ↔ t.enabled = true ∧ t.mode = .periodic ∧ t.value < ticksAt now t
      ∧ ((t.load = none ∧ kind = .reloadUnset) ∨ (t.load = some 0 ∧ kind = .reloadZeroLoad)) := by
  rw [lazyUpdate_error, microticks_div]
  cases hm : t.mode
  · simp [countDown_freeRunning hm]
  · simp [countDown_periodic hm, periodicStep_error_iff]

/-- Settles O26: a Timer access is fatal by its lazy update or by its rule, and only a Load rule
can be fatal. -/
theorem fatalOutcomesAreExactlyThese : Obligations.FatalOutcomesAreExactlyThese := by
  refine ⟨fun i s t kind hd hrun ht hl => ?operation, fun now t kind => lazyUpdate_error_iff,
    fun i s s' => exec_vic_running⟩
  obtain ⟨rule, e, hr⟩ := exec_timer hd
  rw [e, timerAccess_fatal_iff hrun ht hl]
  simp only [hr.error]
  refine or_congr_right ⟨?_, ?_⟩
  · rintro ⟨u, hu, ⟨hi, hkind, hnone⟩ | ⟨hi, hkind, hon⟩⟩
    · exact .inl ⟨hi, hkind, u, hu, hnone⟩
    · exact .inr ⟨hi, hkind, u, hu, hon⟩
  · rintro (⟨hi, hkind, u, hu, hnone⟩ | ⟨hi, hkind, u, hu, hon⟩)
    · exact ⟨u, hu, .inl ⟨hi, hkind, hnone⟩⟩
    · exact ⟨u, hu, .inr ⟨hi, hkind, hon⟩⟩

/-! ### Sampling (R52, R163) -/

/-- Everything a Timer operation that answers a next state and does not halt the run can have done. -/
theorem exec_timer_running {i : Instr} {s s' : State} (hd : i.device = .timer)
    (h : exec i s = .next s') (hrun : s'.halted = false) :
    ∃ t u w o, TimerReady s t u ∧ s' = afterTimer s w o ∧
      ((w = u ∧ (∀ v, i ≠ .tmrLoadWr v) ∧ (∀ v, i ≠ .tmrCtrlWr v)) ∨
       (∃ v, i = .tmrLoadWr v ∧ u.enabled = false ∧ o = .okWrite ∧
         w = { u with load := some (loadField u.bits v), value := loadField u.bits v }) ∨
       (∃ v, i = .tmrCtrlWr v ∧ o = .okWrite ∧ w = controlWrite v u)) := by
  have h0 := exec_next_running h
  obtain ⟨-, t, ht, hl, ⟨kind, rfl⟩ | ⟨u, w, o, hu, hw, rfl⟩⟩ | ⟨hd', -⟩ := exec_next_cases h
  · cases hrun
  · exact ⟨t, u, w, o, ⟨h0, ht, hl, hu⟩, rfl, hw⟩
  · rw [hd] at hd'; cases hd'

theorem device_of_timerSample {i : Instr} (h : TimerSample i) : i.device = .timer := by
  obtain rfl | rfl | ⟨v, rfl⟩ | rfl | rfl | ⟨v, rfl⟩ := h <;> rfl

/-- A sample that is not fatal does the lazy update, and nothing else. -/
theorem exec_timerSample {i : Instr} {s s' : State} (hi : TimerSample i) (h : exec i s = .next s')
    (hrun : s'.halted = false) : ∃ t u o, TimerReady s t u ∧ s' = afterTimer s u o := by
  obtain ⟨t, u, w, o, hready, hs', ⟨rfl, -, -⟩ | ⟨v, rfl, -⟩ | ⟨v, rfl, -⟩⟩ :=
    exec_timer_running (device_of_timerSample hi) h hrun
  · exact ⟨t, w, o, hready, hs'⟩
  · simp [TimerSample] at hi
  · simp [TimerSample] at hi

/-- A later access to the Timer that a lazy update left is the access to the Timer before it. -/
theorem timerAccess_afterTimer {rule : Timer → Except FatalKind (Timer × AccessOutcome)} {s : State}
    {t u : Timer} {b : Nat} (o : AccessOutcome) (h : TimerReady s t u) (hb : s.now ≤ b) :
    timerAccess rule { afterTimer s u o with now := b } = timerAccess rule { s with now := b } := by
  obtain ⟨hrun, ht, hl, hu⟩ := h
  obtain ⟨hbits, -, -, -, -, hlast⟩ := lazyUpdate_frame hu
  have hlazy : lazyUpdate b u = lazyUpdate b t := by
    rw [← lazyUpdate_bind hl hb, hu]
    rfl
  have hput : (s.timers.set s.inst u)[s.inst]? = some u := by
    obtain ⟨hlt, -⟩ := List.getElem?_eq_some_iff.mp ht
    exact List.getElem?_set_self hlt
  simp only [timerAccess, afterTimer, hrun, hput, ht, hlazy, Nat.not_lt.mpr (hlast.trans_le hb),
    Nat.not_lt.mpr (hl.trans hb)]
  cases lazyUpdate b t with
  | error kind => simp [State.raiseFatal, hbits]
  | ok u' => cases hw : rule u' <;> simp [hw, State.raiseFatal, State.putTimer, State.respond, hbits]

/-- Settles O13: the sample only did the lazy update, which the later access would do itself. -/
theorem samplingDoesNotChangeLaterAccesses : Obligations.SamplingDoesNotChangeLaterAccesses := by
  intro i j s s1 b hi hj h hrun hb
  obtain ⟨t, u, o, hready, rfl⟩ := exec_timerSample hi h hrun
  obtain ⟨rule, e, -⟩ := exec_timer hj
  rw [e, e]
  exact timerAccess_afterTimer o hready hb

/-- The Timer operations whose key has direction Read are samples. -/
theorem timerSample_of_read {i : Instr} (hd : i.device = .timer)
    (hread : (encode i).key.getLsbD 12 = false) : TimerSample i := by
  cases i <;> simp_all [Instr.device, TimerSample, encode, timerKey]

/-- Settles O46: a read is a sample, so the second read is the first one again. -/
theorem timerReadsAtOneTimeAreIdempotent : Obligations.TimerReadsAtOneTimeAreIdempotent := by
  intro i s s1 hd hread h hrun
  have hsample := timerSample_of_read hd hread
  have hagain : exec i { s1 with now := s.now } = exec i { s with now := s.now } :=
    samplingDoesNotChangeLaterAccesses i i s s1 s.now hsample hd h hrun le_rfl
  obtain ⟨t, u, o, -, rfl⟩ := exec_timerSample hsample h hrun
  exact hagain.trans h

end Sys2Proof.Proofs
end

section
/-! PROOFS. What a program cannot observe of a disabled Timer, and when a request steps
(spec/10_state.md R29, spec/70_reset_and_hazards.md R161). -/

namespace Sys2Proof.Proofs

open Sys2Proof Sys2Proof.Machine Sys2Proof.Certificates

/-! ### Timers that differ in what cannot be observed (R29) -/

theorem sameButUnobservable_refl (t : Timer) : SameButUnobservable t t := .inl rfl

theorem sameButUnobservable_bits {t t' : Timer} (h : SameButUnobservable t t') : t'.bits = t.bits := by
  obtain rfl | ⟨-, h⟩ := h
  · rfl
  · rw [h]

/-- What a lazy update, which sets the timestamp, leaves of the difference: Timers equal, or both
disabled and different only in the fraction. -/
def SameButFraction (u u' : Timer) : Prop :=
  u' = u ∨ ∃ f, u.enabled = false ∧ u' = { u with frac := f }

theorem SameButFraction.unobservable {u u' : Timer} (h : SameButFraction u u') :
    SameButUnobservable u u' := by
  obtain rfl | ⟨f, hoff, rfl⟩ := h
  · exact .inl rfl
  · exact .inr ⟨hoff, rfl⟩

/-- Lazy updates at one time of Timers that cannot be told apart are fatal with the same kind, or
leave Timers that differ at most in the fraction. -/
theorem lazyUpdate_unobservable {t t' : Timer} (now : Nat) (h : SameButUnobservable t t') :
    (∃ kind, lazyUpdate now t = .error kind ∧ lazyUpdate now t' = .error kind)
      ∨ ∃ u u', lazyUpdate now t = .ok u ∧ lazyUpdate now t' = .ok u' ∧ SameButFraction u u' := by
  obtain rfl | ⟨hoff, h⟩ := h
  · cases hu : lazyUpdate now t' with
    | error kind => exact .inl ⟨kind, rfl, rfl⟩
    | ok u => exact .inr ⟨u, u, rfl, rfl, .inl rfl⟩
  · have hoff' : t'.enabled = false := by rw [h]; exact hoff
    refine .inr ⟨_, _, lazyUpdate_disabled hoff, lazyUpdate_disabled hoff', .inr ⟨t'.frac, hoff, ?_⟩⟩
    rw [h]

/-! ### The rules do not look at it -/

/-- A rule that does not tell apart disabled Timers by their fraction: it gives both the same fatal
kind, or the same answer, and leaves Timers that cannot be told apart. -/
def RuleIgnoresFraction (rule : Timer → Except FatalKind (Timer × AccessOutcome)) : Prop :=
  ∀ (u : Timer) (f : Nat), u.enabled = false →
    (∃ kind, rule u = .error kind ∧ rule { u with frac := f } = .error kind)
      ∨ ∃ w w' o, rule u = .ok (w, o) ∧ rule { u with frac := f } = .ok (w', o)
          ∧ SameButUnobservable w w'

/-- A rule that leaves the Timer and answers from its other fields. -/
theorem ruleIgnoresFraction_answer {answer : Timer → AccessOutcome}
    (h : ∀ (u : Timer) (f : Nat), answer { u with frac := f } = answer u) :
    RuleIgnoresFraction fun t => .ok (t, answer t) :=
  fun u f hoff => .inr ⟨u, { u with frac := f }, answer u, rfl,
    congrArg (fun o => Except.ok (({ u with frac := f } : Timer), o)) (h u f), .inr ⟨hoff, rfl⟩⟩

theorem ruleIgnoresFraction_loadRead : RuleIgnoresFraction loadReadRule := by
  intro u f hoff
  by_cases hn : u.load = none
  · exact .inl ⟨_, (loadReadRule_error _ _).mpr ⟨rfl, hn⟩, (loadReadRule_error _ _).mpr ⟨rfl, hn⟩⟩
  · obtain ⟨n, hn⟩ := Option.ne_none_iff_exists'.mp hn
    exact .inr ⟨_, _, _, loadReadRule_ok.mpr ⟨rfl, n, hn, rfl⟩, loadReadRule_ok.mpr ⟨rfl, n, hn, rfl⟩,
      .inr ⟨hoff, rfl⟩⟩

theorem ruleIgnoresFraction_loadWrite (v : Word) : RuleIgnoresFraction (loadWriteRule v) :=
  fun _ _ hoff => .inr ⟨_, _, _, loadWriteRule_ok.mpr ⟨hoff, rfl, rfl⟩,
    loadWriteRule_ok.mpr ⟨hoff, rfl, rfl⟩, .inr ⟨hoff, rfl⟩⟩

/-- A Control write that enables zeroes both fractions; one that does not leaves both Timers
disabled. -/
theorem ruleIgnoresFraction_controlWrite (v : Word) :
    RuleIgnoresFraction fun t => .ok (controlWrite v t, .okWrite) := by
  refine fun u f hoff => .inr ⟨_, _, _, rfl, rfl, ?_⟩
  cases hen : controlEnable v
  · exact .inr ⟨hen, rfl⟩
  · exact .inl (by simp [controlWrite, hoff, hen])

/-- Every Timer operation is `timerAccess` of a rule that ignores the fraction of a disabled Timer. -/
theorem exec_timer_ignoresFraction {i : Instr} (h : i.device = .timer) :
    ∃ rule, (∀ s, exec i s = timerAccess rule s) ∧ RuleIgnoresFraction rule := by
  cases i
  case tmrLoadRd => exact ⟨_, exec_tmrLoadRd, ruleIgnoresFraction_loadRead⟩
  case tmrLoadWr v => exact ⟨_, exec_tmrLoadWr v, ruleIgnoresFraction_loadWrite v⟩
  case tmrCtrlWr v => exact ⟨_, exec_tmrCtrlWr v, ruleIgnoresFraction_controlWrite v⟩
  case tmrValueRd => exact ⟨_, exec_tmrValueRd, ruleIgnoresFraction_answer fun _ _ => rfl⟩
  case tmrValueWr v => exact ⟨_, exec_tmrValueWr v, ruleIgnoresFraction_answer fun _ _ => rfl⟩
  case tmrCtrlRd => exact ⟨_, exec_tmrCtrlRd, ruleIgnoresFraction_answer fun _ _ => rfl⟩
  case tmrClearRd => exact ⟨_, exec_tmrClearRd, ruleIgnoresFraction_answer fun _ _ => rfl⟩
  case tmrClearWr v => exact ⟨_, exec_tmrClearWr v, ruleIgnoresFraction_answer fun _ _ => rfl⟩
  all_goals cases h

/-! ### States that cannot be told apart -/

/-- Two states equal but for the fractions and timestamps of disabled Timers. -/
def Unobservable (s s' : State) : Prop :=
  s' = { s with timers := s'.timers } ∧ List.Forall₂ SameButUnobservable s.timers s'.timers

/-- Replacing one Timer in both lists by Timers that cannot be told apart keeps the relation. -/
theorem forall₂_set {ts ts' : List Timer} {w w' : Timer} (h : List.Forall₂ SameButUnobservable ts ts')
    (hw : SameButUnobservable w w') (k : Nat) :
    List.Forall₂ SameButUnobservable (ts.set k w) (ts'.set k w') := by
  induction h generalizing k with
  | nil => exact .nil
  | cons hhead htail ih =>
    cases k with
    | zero => exact .cons hw htail
    | succ k => exact .cons hhead (ih k)

section Unobservable
variable {s s' : State} (h : Unobservable s s')
include h

theorem Unobservable.timer {t t' : Timer} (ht : s.timers[s.inst]? = some t)
    (ht' : s'.timers[s'.inst]? = some t') : SameButUnobservable t t' := by
  obtain ⟨heq, hall⟩ := h
  rw [heq] at ht'
  obtain ⟨hlt, rfl⟩ := List.getElem?_eq_some_iff.mp ht
  obtain ⟨hlt', rfl⟩ := List.getElem?_eq_some_iff.mp ht'
  exact hall.get hlt hlt'

theorem Unobservable.respond (r : Response) : Unobservable (s.respond r) (s'.respond r) := by
  obtain ⟨heq, hall⟩ := h
  exact ⟨by rw [heq]; rfl, hall⟩

theorem Unobservable.putTimer {w w' : Timer} (hw : SameButUnobservable w w') :
    Unobservable (s.putTimer w) (s'.putTimer w') := by
  obtain ⟨heq, hall⟩ := h
  rw [heq]
  exact ⟨rfl, forall₂_set hall hw s.inst⟩

theorem Unobservable.putVic (v : Vic) : Unobservable (s.putVic v) (s'.putVic v) := by
  obtain ⟨heq, hall⟩ := h
  rw [heq]
  exact ⟨rfl, hall⟩

theorem Unobservable.raiseFatal {t t' : Timer} (ht : SameButUnobservable t t') (kind : FatalKind) :
    Unobservable (s.raiseFatal t kind) (s'.raiseFatal t' kind) := by
  obtain ⟨heq, hall⟩ := h
  rw [heq]
  refine ⟨rfl, ?_⟩
  rw [State.raiseFatal_timers, State.raiseFatal_timers, sameButUnobservable_bits ht]
  exact forall₂_set hall (sameButUnobservable_refl _) s.inst

theorem Unobservable.accept (r : Request) (rest : List Request) :
    Unobservable (s.accept r rest) (s'.accept r rest) := by
  obtain ⟨heq, hall⟩ := h
  exact ⟨by rw [heq]; rfl, hall⟩

end Unobservable

/-- Two next states report the same and cannot be told apart. -/
def SameReport (u u' : State) : Prop := u'.response = u.response ∧ Unobservable u u'

section Steps
variable {s s' u u' : State} (h : Unobservable s s')
include h

theorem timerAccess_unobservable {rule : Timer → Except FatalKind (Timer × AccessOutcome)}
    (hrule : RuleIgnoresFraction rule) (hu : timerAccess rule s = .next u)
    (hu' : timerAccess rule s' = .next u') : SameReport u u' := by
  obtain ⟨hrun, t, ht, hl, -⟩ := timerAccess_next hu
  obtain ⟨hrun', t', ht', hl', -⟩ := timerAccess_next hu'
  have hsame := h.timer ht ht'
  have hnow : s'.now = s.now := by rw [h.1]
  have fatal {kind : FatalKind} (e : timerAccess rule s = .next (s.raiseFatal t kind))
      (e' : timerAccess rule s' = .next (s'.raiseFatal t' kind)) : SameReport u u' := by
    rw [e] at hu
    rw [e'] at hu'
    cases hu
    cases hu'
    exact ⟨rfl, h.raiseFatal hsame kind⟩
  have answers {w w' : Timer} {o : AccessOutcome} (hw : SameButUnobservable w w')
      (e : timerAccess rule s = .next ((s.putTimer w).respond (.access o)))
      (e' : timerAccess rule s' = .next ((s'.putTimer w').respond (.access o))) : SameReport u u' := by
    rw [e] at hu
    rw [e'] at hu'
    cases hu
    cases hu'
    exact ⟨rfl, (h.putTimer hw).respond _⟩
  obtain ⟨kind, hk, hk'⟩ | ⟨x, x', hx, hx', hfrac⟩ := lazyUpdate_unobservable s.now hsame
  · rw [← hnow] at hk'
    exact fatal (timerAccess_lazyFatal hrun ht hl hk) (timerAccess_lazyFatal hrun' ht' hl' hk')
  rw [← hnow] at hx'
  obtain rfl | ⟨f, hoff, rfl⟩ := hfrac
  · cases hw : rule x' with
    | error kind =>
      exact fatal (timerAccess_ruleFatal hrun ht hl hx hw) (timerAccess_ruleFatal hrun' ht' hl' hx' hw)
    | ok p =>
      exact answers (sameButUnobservable_refl p.1) (timerAccess_ok hrun ht hl hx hw)
        (timerAccess_ok hrun' ht' hl' hx' hw)
  · obtain ⟨kind, hk, hk'⟩ | ⟨w, w', o, hw, hw', hsame'⟩ := hrule x f hoff
    · exact fatal (timerAccess_ruleFatal hrun ht hl hx hk)
        (timerAccess_ruleFatal hrun' ht' hl' hx' hk')
    · exact answers hsame' (timerAccess_ok hrun ht hl hx hw) (timerAccess_ok hrun' ht' hl' hx' hw')

/-- The Vics are the same in both states. -/
theorem Unobservable.vic : s'.vics[s'.inst]? = s.vics[s.inst]? := by rw [h.1]

theorem vicQuery_unobservable {answer : Vic → Response} (hu : vicQuery answer s = .next u)
    (hu' : vicQuery answer s' = .next u') : SameReport u u' := by
  obtain ⟨-, v, hv, rfl⟩ := vicQuery_next.mp hu
  obtain ⟨-, v', hv', rfl⟩ := vicQuery_next.mp hu'
  obtain rfl : v' = v := Option.some.inj (hv'.symm.trans (h.vic.trans hv))
  exact ⟨rfl, h.respond _⟩

theorem vicUpdate_unobservable {edit : Vic → Vic} {r : Response} (hu : vicUpdate edit r s = .next u)
    (hu' : vicUpdate edit r s' = .next u') : SameReport u u' := by
  obtain ⟨-, v, hv, rfl⟩ := vicUpdate_next.mp hu
  obtain ⟨-, v', hv', rfl⟩ := vicUpdate_next.mp hu'
  obtain rfl : v' = v := Option.some.inj (hv'.symm.trans (h.vic.trans hv))
  exact ⟨rfl, (h.putVic _).respond _⟩

theorem exec_unobservable {i : Instr} (hu : exec i s = .next u) (hu' : exec i s' = .next u') :
    SameReport u u' := by
  cases hd : i.device
  · obtain ⟨rule, e, hrule⟩ := exec_timer_ignoresFraction hd
    rw [e] at hu hu'
    exact timerAccess_unobservable h hrule hu hu'
  · obtain ⟨answer, e⟩ | ⟨edit, r, -, e⟩ := exec_vic hd (wellFormed_of_exec_next hu)
    · rw [e] at hu hu'
      exact vicQuery_unobservable h hu hu'
    · rw [e] at hu hu'
      exact vicUpdate_unobservable h hu hu'

end Steps

/-- The next state of a name query. -/
theorem execNameQuery_next {n : Option RegName} {s u : State} :
    execNameQuery n s = .next u ↔ s.halted = false ∧ u = s.respond (.name n) := by
  cases h : s.halted <;> simp [execNameQuery, h, eq_comm]

/-- Settles O59: both steps run the same operation, each in a state that cannot be told from the
other. -/
theorem fractionAndTimestampOfDisabledTimersAreUnobservable :
    Obligations.FractionAndTimestampOfDisabledTimersAreUnobservable := by
  intro s s' u u' heq hall hu hu'
  suffices SameReport u u' from this
  have hpending : s'.pending = s.pending := by rw [heq]
  cases hp : s.pending with
  | nil => rw [step_empty hp] at hu; cases hu
  | cons r rest =>
    have h : Unobservable (s.accept r rest) (s'.accept r rest) :=
      Unobservable.accept ⟨heq, hall⟩ r rest
    rw [step_cons hp] at hu
    rw [step_cons (hpending.trans hp)] at hu'
    cases hd : r.op.decode with
    | instr i =>
      rw [hd] at hu hu'
      exact exec_unobservable h hu hu'
    | unmapped dev =>
      rw [hd] at hu hu'
      cases dev
      · exact timerAccess_unobservable h
          (ruleIgnoresFraction_answer (answer := fun _ => .unexpectedAddress) fun _ _ => rfl) hu hu'
      · exact vicQuery_unobservable h hu hu'
    | name n =>
      rw [hd] at hu hu'
      obtain ⟨-, rfl⟩ := execNameQuery_next.mp hu
      obtain ⟨-, rfl⟩ := execNameQuery_next.mp hu'
      exact ⟨rfl, h.respond _⟩
    | rejected why => rw [hd] at hu; cases hu

/-! ### When a request steps (R161) -/

theorem timerAccess_steps_iff {rule : Timer → Except FatalKind (Timer × AccessOutcome)} {s : State} :
    (∃ s', timerAccess rule s = .next s') ↔
      s.halted = false ∧ ∃ t, s.timers[s.inst]? = some t ∧ t.last ≤ s.now := by
  constructor
  · rintro ⟨s', h⟩
    obtain ⟨hrun, t, ht, hl, -⟩ := timerAccess_next h
    exact ⟨hrun, t, ht, hl⟩
  · rintro ⟨hrun, t, ht, hl⟩
    cases hu : lazyUpdate s.now t with
    | error kind => exact ⟨_, timerAccess_lazyFatal hrun ht hl hu⟩
    | ok u =>
      cases hw : rule u with
      | error kind => exact ⟨_, timerAccess_ruleFatal hrun ht hl hu hw⟩
      | ok p => exact ⟨_, timerAccess_ok hrun ht hl hu hw⟩

theorem vicQuery_steps_iff {answer : Vic → Response} {s : State} :
    (∃ s', vicQuery answer s = .next s') ↔ s.halted = false ∧ s.inst < s.vics.length := by
  simp [vicQuery_next, List.getElem?_eq_some_iff]

theorem vicUpdate_steps_iff {edit : Vic → Vic} {r : Response} {s : State} :
    (∃ s', vicUpdate edit r s = .next s') ↔ s.halted = false ∧ s.inst < s.vics.length := by
  simp [vicUpdate_next, List.getElem?_eq_some_iff]

/-- What the device of a request needs: a Vic there is, or a Timer the clock did not go back for. -/
def DeviceReady (dev : Device) (s : State) : Prop :=
  match dev with
  | .timer => ∃ t, s.timers[s.inst]? = some t ∧ t.last ≤ s.now
  | .vic => s.inst < s.vics.length

theorem exec_steps_iff {i : Instr} (hwf : i.WellFormed) {s : State} :
    (∃ s', exec i s = .next s') ↔ s.halted = false ∧ DeviceReady i.device s := by
  cases hd : i.device
  · obtain ⟨rule, e, -⟩ := exec_timer hd
    rw [e]
    exact timerAccess_steps_iff
  · obtain ⟨answer, e⟩ | ⟨edit, r, -, e⟩ := exec_vic hd hwf
    · rw [e]
      exact vicQuery_steps_iff
    · rw [e]
      exact vicUpdate_steps_iff

/-- No agent's request decodes to an ill-formed operation. -/
theorem wellFormed_of_decode {op : Operation} {i : Instr} (h : op.decode = .instr i) :
    i.WellFormed := by
  have key {w : OpWords} (h : decode w = .instr i) : i.WellFormed := (encodeOfDecodeIsTheKey w i h).1
  cases op with
  | key k d => exact key h
  | bus dev dir size off d =>
    by_cases hsize : size = .word
    · subst hsize
      by_cases hoff : off ≤ 0xFFF
      · rw [(busAccessesHaveTheirKeys dev dir off d).1 hoff] at h
        exact key h
      · rw [(busAccessesHaveTheirKeys dev dir off d).2 (Nat.not_le.mp hoff)] at h
        cases h
    · cases size
      case byte | halfword => cases h
      case word => exact absurd rfl hsize
  | assertLine n =>
    simp only [Operation.decode] at h
    split at h
    · exact key h
    · cases h
  | clearLine n =>
    simp only [Operation.decode] at h
    split at h
    · exact key h
    · cases h
  | irqLine => exact key (w := ⟨0xA000#16, 0⟩) h
  | fiqLine => exact key (w := ⟨0xB000#16, 0⟩) h
  | nameQuery dev off => cases h

/-- The duties of a request, by what its operation is. -/
theorem dutiesMet_iff (s : State) (r : Request) (rest : List Request) :
    dutiesMet s r = true ↔ match r.op.decode with
      | .instr i => DeviceReady i.device (s.accept r rest)
      | .unmapped dev => DeviceReady dev (s.accept r rest)
      | .name _ => True
      | .rejected _ => False := by
  unfold dutiesMet
  cases r.op.decode with
  | instr i =>
    cases hd : i.device
    · cases ht : s.timers[r.inst]? <;> simp [DeviceReady, hd, ht]
    · simp [DeviceReady, hd]
  | unmapped dev =>
    cases dev
    · cases ht : s.timers[r.inst]? <;> simp [DeviceReady, ht]
    · simp [DeviceReady]
  | name n => simp
  | rejected why => simp

/-- Settles O56: the two prologues answer a next state exactly under the duties of their device. -/
theorem stepsExactlyWhenTheDutiesAreMet : Obligations.StepsExactlyWhenTheDutiesAreMet := by
  intro s r rest hp
  rw [step_cons hp, dutiesMet_iff s r rest]
  cases hd : r.op.decode with
  | instr i => exact exec_steps_iff (wellFormed_of_decode hd)
  | unmapped dev =>
    cases dev
    · exact timerAccess_steps_iff
    · exact vicQuery_steps_iff
  | name n => simp [execNameQuery_next]
  | rejected why => simp

end Sys2Proof.Proofs
end

section
/-! PROOFS. The Vic's operations: constants, port calls, the writers of each field, and the laws of
routing (spec/41_vic.md R100 to R131, spec/20_memory.md R53, R54). -/

namespace Sys2Proof.Proofs

open Sys2Proof Sys2Proof.Machine Sys2Proof.Certificates

/-! ### Single operations -/

/-- Settles O32: the update replaces the mask; with mask 0 no line is pending. -/
theorem intEnableWriteReplacesTheMask : Obligations.IntEnableWriteReplacesTheMask := by
  refine ⟨fun w => ?keys, fun s v w h => ⟨w, ?write, fun _ => rfl, fun hzero => ⟨?irq, ?fiq⟩⟩⟩
  case keys => simp [decode, opcodeTable, timerRows, vicMaskRows, OpcodeRow.selects]
  case write => exact vicUpdate_of_ready (edit := fun v => { v with enable := w }) h
  case irq => simp [irqLine, irqBits, hzero]
  case fiq => simp [fiqLine, fiqBits, hzero]

/-- Settles O34: both operations are queries that ignore the Vic. -/
theorem protectionIsAStub : Obligations.ProtectionIsAStub := by
  refine ⟨fun d => ?keys, fun s v h => ⟨?read, fun w => ?write⟩⟩
  case keys => simp [decode, opcodeTable, timerRows, vicMaskRows, vicVectorRows, OpcodeRow.selects]
  case read => exact vicQuery_of_ready (answer := fun _ => .access (.stubRead 0)) h
  case write => exact vicQuery_of_ready (answer := fun _ => .access .stubWrite) h

/-- Settles O40: the four operations are queries that ignore the Vic. -/
theorem identificationWordsAreConstant : Obligations.IdentificationWordsAreConstant := by
  refine ⟨fun d => ?keys, fun s v h => ⟨?id0, ?id1, ?id2, ?id3⟩⟩
  case keys =>
    simp [decode, opcodeTable, timerRows, vicMaskRows, vicVectorRows, vicIdentRows,
      OpcodeRow.selects]
  case id0 => exact vicQuery_of_ready (answer := fun _ => .access (.okRead 0x90#32)) h
  case id1 => exact vicQuery_of_ready (answer := fun _ => .access (.okRead 0x11#32)) h
  case id2 => exact vicQuery_of_ready (answer := fun _ => .access (.okRead 0x04#32)) h
  case id3 => exact vicQuery_of_ready (answer := fun _ => .access (.okRead 0x00#32)) h

theorem exec_vectCntlSlotWr {i : Nat} (hi : i < 16) (w : Word) (s : State) :
    exec (.vicVectCntlSlotWr i w) s
      = vicUpdate (fun v => putSlot v i hi
          { slotAt v i hi with en := slotEnable w, src := slotSource w }) (.access .okWrite) s :=
  dif_pos hi

theorem slotSource_eq (w : Word) : slotSource w = BitVec.ofNat 5 (w.toNat % 32) :=
  BitVec.eq_of_toNat_eq (by simp [slotSource])

/-- Settles O39, by the update of a slot below 16. -/
theorem slotControlWriteSetsEnableAndSource : Obligations.SlotControlWriteSetsEnableAndSource := by
  refine ⟨fun i w hi => decode_vectCntlSlotWr hi w, fun s v i hi w h => ?_⟩
  rw [exec_vectCntlSlotWr hi, slotSource_eq]
  exact vicUpdate_of_ready h

/-! ### Port calls (R127, R128) -/

theorem getLsbD_lineBit {n : Nat} (hn : n < 32) (m : Nat) :
    (lineBit n).getLsbD m = decide (m = n) := by
  rw [lineBit, ← BitVec.twoPow_eq, BitVec.getLsbD_twoPow, decide_eq_true hn, Bool.true_and]
  exact decide_eq_decide.mpr eq_comm

theorem getLsbD_assert {n : Nat} (hn : n < 32) (hw : Word) (m : Nat) :
    (hw ||| lineBit n).getLsbD m = (decide (m = n) || hw.getLsbD m) := by
  rw [BitVec.getLsbD_or, getLsbD_lineBit hn, Bool.or_comm]

theorem getLsbD_clear {n : Nat} (hn : n < 32) (hw : Word) (m : Nat) :
    (hw &&& ~~~lineBit n).getLsbD m = (!decide (m = n) && hw.getLsbD m) := by
  rw [getLsbD_and_not, getLsbD_lineBit hn, Bool.and_comm]

theorem exec_vicAssert {n : Nat} (hn : n < 32) (s : State) : exec (.vicAssert n) s
    = vicUpdate (fun v => { v with hw := v.hw ||| lineBit n }) .portDone s := if_pos hn

theorem exec_vicClear {n : Nat} (hn : n < 32) (s : State) : exec (.vicClear n) s
    = vicUpdate (fun v => { v with hw := v.hw &&& ~~~lineBit n }) .portDone s := if_pos hn

/-- Settles O41: OR and AND with the complement of one line's bit. -/
theorem portCallsEditOneHardwareLine : Obligations.PortCallsEditOneHardwareLine := by
  refine ⟨fun n d hn => ⟨decode_assertKey hn d, decode_clearKey hn d⟩,
    fun s v n h hn => ⟨⟨v.hw ||| lineBit n, ?assert, fun m _ => getLsbD_assert hn v.hw m⟩,
      ⟨v.hw &&& ~~~lineBit n, ?clear, fun m _ => getLsbD_clear hn v.hw m⟩⟩,
    fun s n hn => ⟨if_neg (Nat.not_lt.mpr hn), if_neg (Nat.not_lt.mpr hn)⟩⟩
  case assert => exact (exec_vicAssert hn s).trans (vicUpdate_of_ready h)
  case clear => exact (exec_vicClear hn s).trans (vicUpdate_of_ready h)

/-! ### Routing (R131) -/

theorem word_ne_zero_iff_exists (x : Word) : x ≠ 0 ↔ ∃ n, x.getLsbD n = true := by
  rw [word_ne_zero_iff]
  exact ⟨fun ⟨n, _, h⟩ => ⟨n, h⟩, fun ⟨n, h⟩ => ⟨n, BitVec.lt_of_getLsbD h, h⟩⟩

theorem irqLine_eq_false {v : Vic} : irqLine v = false ↔ irqBits v = 0 := by simp [irqLine]

theorem fiqLine_eq_false {v : Vic} : fiqLine v = false ↔ fiqBits v = 0 := by simp [fiqLine]

/-- Settles O43: the lines are words that are not 0, the status words split `raw & enable` by
`select`, and law 3 is the resolution to the lowest matching slot. -/
theorem routingLawsHold : Obligations.RoutingLawsHold := by
  intro v
  refine ⟨⟨?irq, ?fiq⟩, ⟨?union, ?disjoint⟩, fun i j hij hj hfiq heni _ _ hi _ hbelow => ?lowest,
    ?default⟩
  case irq => exact bne_iff_ne.trans (word_ne_zero_iff_exists _)
  case fiq => exact bne_iff_ne.trans (word_ne_zero_iff_exists _)
  case union =>
    refine BitVec.eq_of_getLsbD_eq fun n _ => ?_
    rw [BitVec.getLsbD_or, getLsbD_irqBits, getLsbD_fiqBits, BitVec.getLsbD_and, BitVec.getLsbD_or]
    cases v.select.getLsbD n <;> simp
  case disjoint =>
    refine BitVec.eq_of_getLsbD_eq fun n _ => ?_
    rw [BitVec.getLsbD_and, getLsbD_irqBits, getLsbD_fiqBits]
    cases v.select.getLsbD n <;> simp
  case lowest =>
    have hirq : irqBits v ≠ 0 := (word_ne_zero_iff_exists _).mpr ⟨_, hi⟩
    obtain ⟨-, hresolves, -⟩ := resolutionTakesTheLowestMatchingSlot v
    refine hresolves (fiqLine_eq_false.mp hfiq) hirq i (hij.trans hj) heni hi
      fun k hk hmatch => ?_
    exact Bool.false_ne_true ((hbelow k hk).symm.trans ((slotMatches_iff _ _).mpr hmatch))
  case default =>
    rintro (⟨-, hirq⟩ | hfiq)
    · exact isrAddress_of_fiq_or_no_irq (.inr (irqLine_eq_false.mp hirq))
    · exact isrAddress_of_fiq_or_no_irq (.inl (bne_iff_ne.mp hfiq))

/-! ### The operations that edit a Vic -/

/-- `VicWrite i v v'`: operation `i` is one that edits a Vic, and makes `v'` of `v`. -/
inductive VicWrite : Instr → Vic → Vic → Prop
  | assert {n : Nat} (hn : n < 32) (v : Vic) :
    VicWrite (.vicAssert n) v { v with hw := v.hw ||| lineBit n }
  | clear {n : Nat} (hn : n < 32) (v : Vic) :
    VicWrite (.vicClear n) v { v with hw := v.hw &&& ~~~lineBit n }
  | intSelect (w : Word) (v : Vic) : VicWrite (.vicIntSelectWr w) v { v with select := w }
  | intEnable (w : Word) (v : Vic) : VicWrite (.vicIntEnableWr w) v { v with enable := w }
  | intEnClear (w : Word) (v : Vic) :
    VicWrite (.vicIntEnClearWr w) v { v with enable := v.enable &&& ~~~w }
  | softInt (w : Word) (v : Vic) : VicWrite (.vicSoftIntWr w) v { v with sw := v.sw ||| w }
  | softIntClear (w : Word) (v : Vic) :
    VicWrite (.vicSoftIntClearWr w) v { v with sw := v.sw &&& ~~~w }
  | defVectAddr (w : Word) (v : Vic) : VicWrite (.vicDefVectAddrWr w) v { v with defvect := w }
  | vectAddrSlot {i : Nat} (hi : i < 16) (w : Word) (v : Vic) :
    VicWrite (.vicVectAddrSlotWr i w) v (putSlot v i hi { slotAt v i hi with addr := w })
  | vectCntlSlot {i : Nat} (hi : i < 16) (w : Word) (v : Vic) :
    VicWrite (.vicVectCntlSlotWr i w) v
      (putSlot v i hi { slotAt v i hi with en := slotEnable w, src := slotSource w })

/-- A Vic operation either only answers, or edits its Vic as `VicWrite` says. -/
theorem exec_vic_write {i : Instr} (hd : i.device = .vic) (hwf : i.WellFormed) :
    (∃ answer, ∀ s, exec i s = vicQuery answer s) ∨
    (∃ edit r, (∀ s, exec i s = vicUpdate edit r s) ∧ ∀ v, VicWrite i v (edit v)) := by
  cases i
  case tmrLoadRd | tmrLoadWr | tmrValueRd | tmrValueWr | tmrCtrlRd | tmrCtrlWr | tmrClearRd
      | tmrClearWr => cases hd
  case vicVectAddrSlotRd i => exact .inl ⟨_, exec_vectAddrSlotRd (of_decide_eq_true hwf)⟩
  case vicVectCntlSlotRd i => exact .inl ⟨_, exec_vectCntlSlotRd (of_decide_eq_true hwf)⟩
  case vicAssert n =>
    exact .inr ⟨_, _, exec_vicAssert (of_decide_eq_true hwf), .assert (of_decide_eq_true hwf)⟩
  case vicClear n =>
    exact .inr ⟨_, _, exec_vicClear (of_decide_eq_true hwf), .clear (of_decide_eq_true hwf)⟩
  case vicVectAddrSlotWr i w =>
    have hi : i < 16 := of_decide_eq_true hwf
    exact .inr ⟨_, _, exec_vectAddrSlotWr hi w, .vectAddrSlot hi w⟩
  case vicVectCntlSlotWr i w =>
    have hi : i < 16 := of_decide_eq_true hwf
    exact .inr ⟨_, _, exec_vectCntlSlotWr hi w, .vectCntlSlot hi w⟩
  case vicIntSelectWr w => exact .inr ⟨_, _, fun s => rfl, .intSelect w⟩
  case vicIntEnableWr w => exact .inr ⟨_, _, fun s => rfl, .intEnable w⟩
  case vicIntEnClearWr w => exact .inr ⟨_, _, fun s => rfl, .intEnClear w⟩
  case vicSoftIntWr w => exact .inr ⟨_, _, fun s => rfl, .softInt w⟩
  case vicSoftIntClearWr w => exact .inr ⟨_, _, fun s => rfl, .softIntClear w⟩
  case vicDefVectAddrWr w => exact .inr ⟨_, _, fun s => rfl, .defVectAddr w⟩
  all_goals exact .inl ⟨_, fun s => rfl⟩

/-! ### The writers of each field (R31 to R36) -/

/-- An operation that changed a Vic addressed it, and is one that edits. -/
theorem vicWrite_of_changed {i : Instr} {s s' : State} {k : Nat} {v v' : Vic}
    (h : exec i s = .next s') (hv : s.vics[k]? = some v) (hv' : s'.vics[k]? = some v')
    (hne : v' ≠ v) : k = s.inst ∧ VicWrite i v v' := by
  have unchanged (hvics : s'.vics = s.vics) : v' = v := by
    rw [hvics, hv] at hv'
    exact (Option.some.inj hv').symm
  cases hd : i.device
  · obtain ⟨rule, e, -⟩ := exec_timer hd
    rw [e] at h
    obtain ⟨-, t, -, -, ⟨kind, -, rfl⟩ | ⟨u, -, ⟨kind, -, rfl⟩ | ⟨w, o, -, rfl⟩⟩⟩ :=
      timerAccess_next h
    all_goals exact absurd (unchanged rfl) hne
  obtain ⟨answer, e⟩ | ⟨edit, r, e, hwrite⟩ := exec_vic_write hd (wellFormed_of_exec_next h)
  · rw [e, vicQuery_next] at h
    obtain ⟨-, _, -, rfl⟩ := h
    exact absurd (unchanged rfl) hne
  · rw [e, vicUpdate_next] at h
    obtain ⟨-, v0, hv0, rfl⟩ := h
    rw [State.respond_vics, State.putVic_vics] at hv'
    by_cases hk : k = s.inst
    · subst hk
      obtain rfl : v = v0 := Option.some.inj (hv.symm.trans hv0)
      obtain ⟨hlt, -⟩ := List.getElem?_eq_some_iff.mp hv
      rw [List.getElem?_set_self hlt] at hv'
      exact ⟨rfl, Option.some.inj hv' ▸ hwrite v⟩
    · rw [List.getElem?_set_ne (Ne.symm hk), hv] at hv'
      exact absurd (Option.some.inj hv').symm hne

section Fields
variable {i : Instr} {v v' : Vic} (h : VicWrite i v v')
include h

theorem VicWrite.hw (hne : v'.hw ≠ v.hw) : ∃ n, n < 32 ∧
    ((i = .vicAssert n ∧ v.hw.getLsbD n = false ∧ v'.hw.getLsbD n = true)
      ∨ (i = .vicClear n ∧ v.hw.getLsbD n = true ∧ v'.hw.getLsbD n = false)) := by
  cases h
  case assert n hn =>
    refine ⟨n, hn, .inl ⟨rfl, ?_, by simp [getLsbD_assert hn]⟩⟩
    by_contra hset
    refine hne (BitVec.eq_of_getLsbD_eq fun m _ => ?_)
    rw [getLsbD_assert hn]
    by_cases hm : m = n <;> simp_all
  case clear n hn =>
    refine ⟨n, hn, .inr ⟨rfl, ?_, by simp [getLsbD_clear hn]⟩⟩
    by_contra hset
    refine hne (BitVec.eq_of_getLsbD_eq fun m _ => ?_)
    rw [getLsbD_clear hn]
    by_cases hm : m = n <;> simp_all
  all_goals exact absurd rfl hne

theorem VicWrite.sw (hne : v'.sw ≠ v.sw) :
    ∃ w, (i = .vicSoftIntWr w ∧ v'.sw = v.sw ||| w)
      ∨ (i = .vicSoftIntClearWr w ∧ v'.sw = v.sw &&& ~~~w) := by
  cases h
  case softInt w => exact ⟨w, .inl ⟨rfl, rfl⟩⟩
  case softIntClear w => exact ⟨w, .inr ⟨rfl, rfl⟩⟩
  all_goals exact absurd rfl hne

theorem VicWrite.enable (hne : v'.enable ≠ v.enable) :
    ∃ w, (i = .vicIntEnableWr w ∧ v'.enable = w)
      ∨ (i = .vicIntEnClearWr w ∧ v'.enable = v.enable &&& ~~~w) := by
  cases h
  case intEnable w => exact ⟨w, .inl ⟨rfl, rfl⟩⟩
  case intEnClear w => exact ⟨w, .inr ⟨rfl, rfl⟩⟩
  all_goals exact absurd rfl hne

theorem VicWrite.select (hne : v'.select ≠ v.select) : i = .vicIntSelectWr v'.select := by
  cases h
  case intSelect w => rfl
  all_goals exact absurd rfl hne

theorem VicWrite.defvect (hne : v'.defvect ≠ v.defvect) : i = .vicDefVectAddrWr v'.defvect := by
  cases h
  case defVectAddr w => rfl
  all_goals exact absurd rfl hne

theorem VicWrite.slot {n : Nat} {hn : n < 16} (hne : v'.slots[n] ≠ v.slots[n]) :
    ∃ w, (i = .vicVectAddrSlotWr n w ∧ v'.slots[n].addr = w)
      ∨ (i = .vicVectCntlSlotWr n w ∧ v'.slots[n].addr = v.slots[n].addr) := by
  have addressed {k : Nat} {hk : k < 16} {sl : Slot}
      (hne : (putSlot v k hk sl).slots[n] ≠ v.slots[n]) :
      k = n := by
    by_contra hkn
    exact hne (Vector.getElem_set_ne hk hn hkn)
  cases h
  case vectAddrSlot k hk w =>
    obtain rfl := addressed hne
    exact ⟨w, .inl ⟨rfl, by simp⟩⟩
  case vectCntlSlot k hk w =>
    obtain rfl := addressed hne
    exact ⟨w, .inr ⟨rfl, by simp [slotAt]⟩⟩
  all_goals exact absurd rfl hne

end Fields

/-- Settles O44: a field that differs makes the Vic differ, and each edit changes one field. -/
theorem eachVicFieldHasItsOwnWriters : Obligations.EachVicFieldHasItsOwnWriters := by
  intro i s s' k v v' h hv hv'
  have changed {β : Type} {f : Vic → β} (hne : f v' ≠ f v) : k = s.inst ∧ VicWrite i v v' :=
    vicWrite_of_changed h hv hv' fun heq => hne (congrArg f heq)
  refine ⟨fun hne => ?_, fun hne => ?_, fun hne => ?_, fun hne => ?_, fun hne => ?_,
    fun n hn hne => ?_⟩
  · exact (changed (f := Vic.hw) hne).imp_right (VicWrite.hw · hne)
  · exact (changed (f := Vic.sw) hne).imp_right (VicWrite.sw · hne)
  · exact (changed (f := Vic.enable) hne).imp_right (VicWrite.enable · hne)
  · exact (changed (f := Vic.select) hne).imp_right (VicWrite.select · hne)
  · exact (changed (f := Vic.defvect) hne).imp_right (VicWrite.defvect · hne)
  · exact (changed (f := fun v => v.slots[n]) hne).imp_right (VicWrite.slot · hne)

/-! ### Idempotence and pure reads (R53, R54) -/

/-- Editing again changes nothing. -/
theorem VicWrite.idem {i : Instr} {v v' v'' : Vic} (h : VicWrite i v v') (h' : VicWrite i v' v'') :
    v'' = v' := by
  cases h <;> cases h'
  case assert.assert => simp [BitVec.or_assoc]
  case clear.clear => simp [BitVec.and_assoc]
  case intEnClear.intEnClear => simp [BitVec.and_assoc]
  case softInt.softInt => simp [BitVec.or_assoc]
  case softIntClear.softIntClear => simp [BitVec.and_assoc]
  case vectAddrSlot.vectAddrSlot => simp [putSlot, slotAt]
  case vectCntlSlot.vectCntlSlot => simp [putSlot, slotAt]
  all_goals rfl

/-- No key of an operation that edits is a bus Read. -/
theorem VicWrite.not_read {i : Instr} {v v' : Vic} (h : VicWrite i v v') :
    (encode i).key.getLsbD 15 = true ∨ (encode i).key.getLsbD 12 = true := by
  cases h <;> simp [encode, vicKey, portKey]

/-- Settles O45: a query sees the same Vic again, an edit done again changes nothing, and a read is
no edit. -/
theorem vicOperationsAreIdempotentAndReadsPure :
    Obligations.VicOperationsAreIdempotentAndReadsPure := by
  constructor
  · intro i s s1 hd h
    obtain ⟨answer, e⟩ | ⟨edit, r, e, hwrite⟩ := exec_vic_write hd (wellFormed_of_exec_next h)
    · rw [e, vicQuery_next] at h
      obtain ⟨hrun, v, hv, rfl⟩ := h
      rw [e]
      exact vicQuery_ok hrun hv
    · rw [e, vicUpdate_next] at h
      obtain ⟨hrun, v, hv, rfl⟩ := h
      obtain ⟨hlt, -⟩ := List.getElem?_eq_some_iff.mp hv
      have hput : ((s.putVic (edit v)).respond r).vics[s.inst]? = some (edit v) :=
        List.getElem?_set_self hlt
      rw [e, vicUpdate_ok (s := (s.putVic (edit v)).respond r) hrun hput,
        (hwrite v).idem (hwrite (edit v))]
      simp [State.putVic, State.respond]
  · intro i s s1 hd h15 h12 h
    obtain ⟨answer, e⟩ | ⟨edit, r, -, hwrite⟩ := exec_vic_write hd (wellFormed_of_exec_next h)
    · rw [e, vicQuery_next] at h
      obtain ⟨-, v, -, rfl⟩ := h
      rfl
    · obtain hkey | hkey := (hwrite newVic).not_read
      · rw [h15] at hkey; cases hkey
      · rw [h12] at hkey; cases hkey

end Sys2Proof.Proofs
end

section
/-! PROOFS. Rules over all operations: frames, commuting, recoverable outcomes, and what reads back
(spec/00_scope.md R15, spec/20_memory.md R59, spec/60_exceptions.md R138, spec/10_state.md R21 to R25,
R39 to R43). -/

namespace Sys2Proof.Proofs

open Sys2Proof Sys2Proof.Machine Sys2Proof.Certificates

/-! ### The frame (R15, R138) -/

/-- Settles O48: every next state of an operation replaces one device's state, reports, or ends the
run. -/
theorem operationsTouchOnlyTheirInstance : Obligations.OperationsTouchOnlyTheirInstance := by
  intro i s s' h
  have hrun := exec_next_running h
  have timer {w : Timer} {k : Nat} (hk : k ≠ s.inst) :
      (s.timers.set s.inst w)[k]? = s.timers[k]? := List.getElem?_set_ne (Ne.symm hk)
  have vic {w : Vic} {k : Nat} (hk : k ≠ s.inst) :
      (s.vics.set s.inst w)[k]? = s.vics[k]? := List.getElem?_set_ne (Ne.symm hk)
  obtain ⟨hd, t, -, -, ⟨kind, rfl⟩ | ⟨u, w, o, -, -, rfl⟩⟩ |
    ⟨hd, v, -, ⟨r, rfl⟩ | ⟨v', r, -, rfl⟩⟩ := exec_next_cases h
  · refine ⟨fun _ => rfl, fun hd' => ?_, fun k hk => ⟨timer hk, rfl⟩, rfl, rfl, rfl, fun hhalt => ?_⟩
    · rw [hd] at hd'; cases hd'
    · rw [hrun] at hhalt; cases hhalt
  · refine ⟨fun _ => rfl, fun hd' => ?_, fun k hk => ⟨timer hk, rfl⟩, rfl, rfl, rfl, fun _ => rfl⟩
    rw [hd] at hd'; cases hd'
  · exact ⟨fun _ => rfl, fun _ => rfl, fun k hk => ⟨rfl, rfl⟩, rfl, rfl, rfl, fun _ => rfl⟩
  · refine ⟨fun hd' => ?_, fun _ => rfl, fun k hk => ⟨rfl, vic hk⟩, rfl, rfl, rfl, fun _ => rfl⟩
    rw [hd] at hd'; cases hd'

/-- Settles O50: a write of Load, Control or a Vic reports success, and the other operations leave
the updated Timer or only answer. -/
theorem recoverableOutcomesChangeNothing : Obligations.RecoverableOutcomesChangeNothing := by
  intro i s s' o h hresponse hrec
  have hrun := exec_next_running h
  obtain ⟨hd, t, ht, hl, ⟨kind, rfl⟩ | ⟨u, w, o', hu, hw, rfl⟩⟩ |
    ⟨hd, v, -, ⟨r, rfl⟩ | ⟨v', r, hr, rfl⟩⟩ := exec_next_cases h
  · cases hresponse
    cases hrec
  · cases hresponse
    obtain ⟨rfl, -, -⟩ | ⟨v, -, -, rfl, -⟩ | ⟨v, -, rfl, -⟩ := hw
    · refine ⟨hrun, fun hd' => ?_, fun _ => ⟨t, w, ⟨hrun, ht, hl, hu⟩, rfl⟩⟩
      rw [hd] at hd'; cases hd'
    · cases hrec
    · cases hrec
  · cases hresponse
    refine ⟨hrun, fun _ => rfl, fun hd' => ?_⟩
    rw [hd] at hd'; cases hd'
  · obtain rfl | rfl := hr
    · cases hresponse
      cases hrec
    · cases hresponse

/-! ### What changes a Timer's settings and load value (R21 to R25) -/

/-- A Timer that an operation changed, in a run that goes on, is the one it addressed, and the
operation is a Timer operation. -/
theorem timer_of_changed {i : Instr} {s s' : State} {k : Nat} {t t' : Timer}
    (h : exec i s = .next s') (hrun : s'.halted = false) (ht : s.timers[k]? = some t)
    (ht' : s'.timers[k]? = some t') (hne : t' ≠ t) :
    k = s.inst ∧ ∃ u, lazyUpdate s.now t = .ok u ∧
      (t' = u ∨ (∃ v, i = .tmrLoadWr v ∧ u.enabled = false ∧
          t' = { u with load := some (loadField u.bits v), value := loadField u.bits v })
        ∨ (∃ v, i = .tmrCtrlWr v ∧ t' = controlWrite v u)) := by
  have unchanged (hget : s'.timers[k]? = s.timers[k]?) : t' = t := by
    rw [hget, ht] at ht'
    exact (Option.some.inj ht').symm
  obtain ⟨-, hvic, hother, -⟩ := operationsTouchOnlyTheirInstance i s s' h
  by_cases hk : k = s.inst
  case neg => exact absurd (unchanged (hother k hk).1) hne
  cases hd : i.device
  case vic => exact absurd (unchanged (by rw [hvic hd])) hne
  obtain ⟨t0, u, w, o, ⟨-, ht0, -, hu⟩, rfl, hw⟩ := exec_timer_running hd h hrun
  subst hk
  obtain rfl : t = t0 := Option.some.inj (ht.symm.trans ht0)
  obtain ⟨hlt, -⟩ := List.getElem?_eq_some_iff.mp ht
  obtain rfl : w = t' := Option.some.inj ((List.getElem?_set_self hlt).symm.trans ht')
  refine ⟨rfl, u, hu, ?_⟩
  obtain ⟨rfl, -, -⟩ | ⟨v, rfl, hoff, -, rfl⟩ | ⟨v, rfl, -, rfl⟩ := hw
  · exact .inl rfl
  · exact .inr (.inl ⟨v, rfl, hoff, rfl⟩)
  · exact .inr (.inr ⟨v, rfl, rfl⟩)

theorem controlMode_eq_periodic (v : Word) : controlMode v = .periodic ↔ v.getLsbD 6 = true := by
  unfold controlMode
  cases v.getLsbD 6 <;> simp

theorem controlClksel_eq_k508 (v : Word) : controlClksel v = .k508 ↔ v.getLsbD 3 = true := by
  unfold controlClksel
  cases v.getLsbD 3 <;> simp

/-- Settles O51: a lazy update and a Load write keep the three settings. -/
theorem onlyControlWritesChangeTheSettings : Obligations.OnlyControlWritesChangeTheSettings := by
  intro i s s' k t t' h hrun ht ht' hchange
  have hne : t' ≠ t := by rintro rfl; simp at hchange
  obtain ⟨hk, u, hu, hcase⟩ := timer_of_changed h hrun ht ht' hne
  obtain ⟨-, -, henabled, hmode, hclksel, -⟩ := lazyUpdate_frame hu
  refine ⟨hk, ?_⟩
  obtain rfl | ⟨v, -, -, rfl⟩ | ⟨v, rfl, rfl⟩ := hcase
  · simp [henabled, hmode, hclksel] at hchange
  · simp [henabled, hmode, hclksel] at hchange
  · exact ⟨v, rfl, rfl, controlMode_eq_periodic v, controlClksel_eq_k508 v⟩

/-- Settles O52: a lazy update keeps the load value, and a Control write changes it only where it
disables. -/
theorem loadValueComesAndGoes : Obligations.LoadValueComesAndGoes := by
  intro i s s' k t t' h hrun ht ht' hchange
  have hne : t' ≠ t := by rintro rfl; exact hchange rfl
  obtain ⟨hk, u, hu, hcase⟩ := timer_of_changed h hrun ht ht' hne
  obtain ⟨hbits, hload, henabled, -⟩ := lazyUpdate_frame hu
  refine ⟨hk, ?_⟩
  obtain rfl | ⟨v, rfl, hoff, rfl⟩ | ⟨v, rfl, rfl⟩ := hcase
  · exact absurd hload hchange
  · refine .inl ⟨v, rfl, henabled ▸ hoff, ?_⟩
    rw [← hbits, ← loadField_eq]
  · rw [controlWrite_load, hload] at hchange ⊢
    split at hchange
    · rename_i hdisables
      rw [henabled, Bool.and_eq_true, Bool.not_eq_true'] at hdisables
      obtain ⟨hon, hoff⟩ := hdisables
      refine .inr ⟨v, rfl, hon, hoff, if_pos ?_⟩
      rw [henabled, hon, hoff]
      rfl
    · exact absurd rfl hchange

/-! ### Written words read back (R39 to R43) -/

theorem vicReady_afterVic {s : State} {v : Vic} (h : VicReady s v) (v' : Vic) (r : Response) :
    VicReady (afterVic s v' r) v' := by
  obtain ⟨hrun, hv⟩ := h
  obtain ⟨hlt, -⟩ := List.getElem?_eq_some_iff.mp hv
  exact ⟨hrun, List.getElem?_set_self hlt⟩

/-- The low 6 bits of the word are the enable flag over the source line. -/
theorem vectCntlWord_written (w addr : Word) :
    vectCntlWord { src := slotSource w, addr := addr, en := slotEnable w } = w &&& 0x3F#32 := by
  have hen : slotEnable w = decide (w.toNat / 32 % 2 = 1) := Nat.testBit_eq_decide_div_mod_eq
  have hmask : (w &&& 0x3F#32).toNat = w.toNat % 64 := Nat.and_two_pow_sub_one_eq_mod w.toNat 6
  refine BitVec.eq_of_toNat_eq ?_
  rw [vectCntlWord_toNat, hmask, slotSource_eq, BitVec.toNat_ofNat, hen]
  by_cases hbit : w.toNat / 32 % 2 = 1 <;> simp [hbit] <;> omega

/-- The Control word keeps bits 7, 6 and 3 of the word written. -/
theorem controlWord_controlWrite (w : Word) (u : Timer) :
    controlWord (controlWrite w u) = w &&& 0xC8#32 := by
  refine BitVec.eq_of_getLsbD_eq fun n hn => ?_
  have hmask : (0xC8#32).getLsbD n = (decide (3 = n) || decide (6 = n) || decide (7 = n)) := by
    interval_cases n <;> rfl
  have hclk : decide (controlClksel w = .k508) = w.getLsbD 3 :=
    Bool.eq_iff_iff.mpr (decide_eq_true_iff.trans (controlClksel_eq_k508 w))
  have hmode : decide (controlMode w = .periodic) = w.getLsbD 6 :=
    Bool.eq_iff_iff.mpr (decide_eq_true_iff.trans (controlMode_eq_periodic w))
  rw [getLsbD_controlWord, controlWrite_clksel, controlWrite_mode, controlWrite_enabled,
    controlEnable, hclk, hmode, BitVec.getLsbD_and, hmask]
  by_cases h3 : 3 = n
  · subst h3; simp
  by_cases h6 : 6 = n
  · subst h6; simp
  by_cases h7 : 7 = n
  · subst h7; simp
  simp [h3, h6, h7]

theorem countDown_zero (t : Timer) : ∃ x, countDown t 0 = .ok x := by
  cases hm : t.mode
  · exact ⟨_, countDown_freeRunning hm 0⟩
  · exact ⟨_, (countDown_periodic hm 0).trans (periodicStep_of_le (Nat.zero_le _))⟩

/-- No tick passes between two accesses at one time. -/
theorem lazyUpdate_sameTime {t : Timer} (hfrac : t.enabled = true → t.frac < microticksPerTick) :
    ∃ u, lazyUpdate t.last t = .ok u := by
  cases he : t.enabled
  · exact ⟨_, lazyUpdate_disabled he⟩
  have hticks : microticks t.last t / microticksPerTick = 0 := by
    rw [microticks, Nat.sub_self, Nat.zero_mul, Nat.zero_add, Nat.div_eq_of_lt (hfrac he)]
  obtain ⟨x, hx⟩ := countDown_zero t
  rw [← hticks] at hx
  exact ⟨_, lazyUpdate_enabled he hx⟩

/-- An enabled Timer that a lazy update left has its fraction below one tick. -/
theorem lazyUpdate_frac_lt {now : Nat} {t u : Timer} (h : lazyUpdate now t = .ok u)
    (hon : u.enabled = true) : u.frac < microticksPerTick := by
  obtain ⟨hoff, rfl⟩ | ⟨-, x, -, rfl⟩ := lazyUpdate_ok h
  · rw [hoff] at hon; cases hon
  · exact Nat.mod_lt _ (by decide)

theorem controlWrite_frac_lt {now : Nat} {t u : Timer} (w : Word) (h : lazyUpdate now t = .ok u) :
    (controlWrite w u).enabled = true → (controlWrite w u).frac < microticksPerTick := by
  intro hen
  rw [controlWrite_enabled] at hen
  rw [controlWrite_frac, hen]
  cases hon : u.enabled
  · exact Nat.zero_lt_succ _
  · exact lazyUpdate_frac_lt h hon

/-- An access at the time of the one before finds the Timer that one left. -/
theorem timerReady_afterTimer {s : State} {t u w x : Timer} (o : AccessOutcome)
    (h : TimerReady s t u) (hlast : w.last = s.now) (hx : lazyUpdate w.last w = .ok x) :
    TimerReady (afterTimer s w o) w x := by
  obtain ⟨hrun, ht, -, -⟩ := h
  obtain ⟨hlt, -⟩ := List.getElem?_eq_some_iff.mp ht
  exact ⟨hrun, List.getElem?_set_self hlt, hlast.le, hlast ▸ hx⟩

theorem controlWrite_reads_back {s s1 : State} {w : Word} (h : exec (.tmrCtrlWr w) s = .next s1)
    (hrun : s1.halted = false) : ∃ s2, exec .tmrCtrlRd s1 = .next s2
      ∧ s2.response = .access (.okRead (w &&& 0xC8#32)) := by
  obtain ⟨t, u, w', o, hready, rfl, ⟨-, -, hne⟩ | ⟨v, hv, -⟩ | ⟨v, hv, -, rfl⟩⟩ :=
    exec_timer_running rfl h hrun
  · exact absurd rfl (hne w)
  · cases hv
  · cases hv
    have ⟨_, _, _, hu⟩ := hready
    obtain ⟨-, -, -, -, -, hlast⟩ := lazyUpdate_frame hu
    obtain ⟨x, hx⟩ := lazyUpdate_sameTime (controlWrite_frac_lt w hu)
    refine ⟨_, (exec_tmrCtrlRd _).trans (timerAccess_of_ready (timerReady_afterTimer o hready hlast hx)
      rfl), ?_⟩
    obtain ⟨-, -, henabled, hmode, hclksel, -⟩ := lazyUpdate_frame hx
    rw [← controlWord_controlWrite w u, controlWord_eq x, henabled, hmode, hclksel, ← controlWord_eq]
    rfl

/-- A Load write that is not fatal leaves a disabled Timer with the word as load value and count. -/
theorem loadWrite_leaves {s s1 : State} {t : Timer} {w : Word} (ht : s.timers[s.inst]? = some t)
    (h : exec (.tmrLoadWr w) s = .next s1) (hrun : s1.halted = false) :
    ∃ x, TimerReady s1 x x ∧ x.load = some (w.toNat % counterSize t.bits)
      ∧ x.value = w.toNat % counterSize t.bits := by
  obtain ⟨t', u, w', o, hready, rfl, ⟨-, hne, -⟩ | ⟨v, hv, hoff, -, rfl⟩ | ⟨v, hv, -⟩⟩ :=
    exec_timer_running rfl h hrun
  · exact absurd rfl (hne w)
  · cases hv
    have ⟨_, ht', _, hu⟩ := hready
    obtain rfl : t = t' := Option.some.inj (ht.symm.trans ht')
    obtain ⟨hbits, -, -, -, -, hlast⟩ := lazyUpdate_frame hu
    refine ⟨_, timerReady_afterTimer o hready hlast (lazyUpdate_disabled hoff), ?_, ?_⟩
    · rw [← hbits, ← loadField_eq]
    · rw [← hbits, ← loadField_eq]
  · cases hv

/-- Settles O47: each write is followed by the read of the field it left. -/
theorem writtenWordsReadBack : Obligations.WrittenWordsReadBack := by
  refine ⟨fun s s1 v w h => ⟨fun hs => ?select, fun hs => ?enable, fun hs => ?defvect,
    fun i hi hs => ?address, fun i hi hs => ?control⟩, fun s s1 w => controlWrite_reads_back,
    fun s s1 t w ht hs hrun => ?load⟩
  case select =>
    obtain ⟨hwrite, -⟩ := fieldWritesReplaceTheField.2 s v w h
    rw [hwrite] at hs
    cases hs
    obtain ⟨hread, -⟩ := fieldReadsReturnTheField.2 _ _ (vicReady_afterVic h _ _)
    exact hread
  case enable =>
    have hwrite : exec (.vicIntEnableWr w) s
        = .next (afterVic s { v with enable := w } (.access .okWrite)) :=
      vicUpdate_of_ready (edit := fun v => { v with enable := w }) h
    rw [hwrite] at hs
    cases hs
    obtain ⟨-, hread, -⟩ := fieldReadsReturnTheField.2 _ _ (vicReady_afterVic h _ _)
    exact hread
  case defvect =>
    obtain ⟨-, hwrite⟩ := fieldWritesReplaceTheField.2 s v w h
    rw [hwrite] at hs
    cases hs
    obtain ⟨-, -, -, hread⟩ := fieldReadsReturnTheField.2 _ _ (vicReady_afterVic h _ _)
    exact hread
  case address =>
    rw [exec_vectAddrSlotWr hi, vicUpdate_of_ready h] at hs
    cases hs
    rw [exec_vectAddrSlotRd hi, vicQuery_of_ready (vicReady_afterVic h _ _)]
    simp [slotAt]
  case control =>
    rw [exec_vectCntlSlotWr hi, vicUpdate_of_ready h] at hs
    cases hs
    rw [exec_vectCntlSlotRd hi, vicQuery_of_ready (vicReady_afterVic h _ _)]
    simp [slotAt, vectCntlWord_written]
  case load =>
    obtain ⟨x, hready, hload, hvalue⟩ := loadWrite_leaves ht hs hrun
    refine ⟨⟨_, (loadReadReturnsTheLoadOrIsFatal.2 s1 x x hready).1 _ hload, rfl⟩,
      ⟨_, valueReadReturnsTheCount.2 s1 x x hready, ?_⟩⟩
    rw [hvalue]
    rfl

/-! ### Operations on different instances (R59) -/

/-- What a Timer operation that is not fatal does to its Timer and answers, it does in every state
that has the same Timer at the addressed place and the same clock reading. -/
theorem exec_timer_local {i : Instr} {s s' : State} (hd : i.device = .timer)
    (h : exec i s = .next s') (hrun : s'.halted = false) :
    s.halted = false ∧ ∃ t w o, s.timers[s.inst]? = some t ∧ s' = afterTimer s w o ∧
      ∀ q : State, q.halted = false → q.timers[q.inst]? = some t → q.now = s.now →
        exec i q = .next (afterTimer q w o) := by
  obtain ⟨rule, e, -⟩ := exec_timer hd
  rw [e] at h
  obtain ⟨h0, t, ht, hl, ⟨kind, -, rfl⟩ | ⟨u, hu, ⟨kind, -, rfl⟩ | ⟨w, o, hw, rfl⟩⟩⟩ :=
    timerAccess_next h
  · cases hrun
  · cases hrun
  · refine ⟨h0, t, w, o, ht, rfl, fun q hq htq hnow => ?_⟩
    rw [e]
    exact timerAccess_of_ready ⟨hq, htq, hnow ▸ hl, hnow ▸ hu⟩ hw

/-- The same of a Vic operation, which has no clock reading. -/
theorem exec_vic_local {i : Instr} {s s' : State} (hd : i.device = .vic)
    (h : exec i s = .next s') :
    s.halted = false ∧ ∃ v v' r, s.vics[s.inst]? = some v ∧ s' = afterVic s v' r ∧
      ∀ q : State, q.halted = false → q.vics[q.inst]? = some v →
        exec i q = .next (afterVic q v' r) := by
  obtain ⟨answer, e⟩ | ⟨edit, r, -, e⟩ := exec_vic hd (wellFormed_of_exec_next h)
  · have answered_eq {q : State} {v : Vic} (hv : q.vics[q.inst]? = some v) :
        q.respond (answer v) = afterVic q v (answer v) := by
      obtain ⟨hlt, rfl⟩ := List.getElem?_eq_some_iff.mp hv
      simp [afterVic, State.respond]
    rw [e, vicQuery_next] at h
    obtain ⟨h0, v, hv, rfl⟩ := h
    refine ⟨h0, v, v, answer v, hv, answered_eq hv, fun q hq hvq => ?_⟩
    rw [e, vicQuery_ok hq hvq, answered_eq hvq]
  · rw [e, vicUpdate_next] at h
    obtain ⟨h0, v, hv, rfl⟩ := h
    refine ⟨h0, v, edit v, r, hv, rfl, fun q hq hvq => ?_⟩
    rw [e]
    exact vicUpdate_of_ready ⟨hq, hvq⟩

/-- After `i` gave `si` and `j` gave `sj`, each alone, the two run in either order, with the devices
and the answers R59 asks for. -/
def Commutes (i j : Instr) (k l a b : Nat) (si sj : State) : Prop :=
  ∃ sij sji, exec j { si with inst := l, now := b } = .next sij
    ∧ exec i { sj with inst := k, now := a } = .next sji
    ∧ sij.timers = sji.timers ∧ sij.vics = sji.vics
    ∧ sij.halted = false ∧ sji.halted = false
    ∧ sij.response = sj.response ∧ sji.response = si.response

theorem Commutes.symm {i j : Instr} {k l a b : Nat} {si sj : State}
    (h : Commutes i j k l a b si sj) : Commutes j i l k b a sj si := by
  obtain ⟨sij, sji, hij, hji, htimers, hvics, hrun, hrun', hj, hi⟩ := h
  exact ⟨sji, sij, hji, hij, htimers.symm, hvics.symm, hrun', hrun, hi, hj⟩

section Commutes
variable {i j : Instr} {s si sj : State} {k l a b : Nat}
  (hsi : exec i { s with inst := k, now := a } = .next si) (hi : si.halted = false)
  (hsj : exec j { s with inst := l, now := b } = .next sj) (hj : sj.halted = false)
include hsi hi hsj hj

theorem commutes_timer_timer (hdi : i.device = .timer) (hdj : j.device = .timer) (hkl : k ≠ l) :
    Commutes i j k l a b si sj := by
  obtain ⟨hrun, t, w, o, ht, rfl, hlocal⟩ := exec_timer_local hdi hsi hi
  obtain ⟨-, t', w', o', ht', rfl, hlocal'⟩ := exec_timer_local hdj hsj hj
  exact ⟨_, _, hlocal' _ hrun ((List.getElem?_set_ne hkl).trans ht') rfl,
    hlocal _ hrun ((List.getElem?_set_ne hkl.symm).trans ht) rfl,
    List.set_comm w w' hkl, rfl, hrun, hrun, rfl, rfl⟩

theorem commutes_vic_vic (hdi : i.device = .vic) (hdj : j.device = .vic) (hkl : k ≠ l) :
    Commutes i j k l a b si sj := by
  obtain ⟨hrun, v, w, r, hv, rfl, hlocal⟩ := exec_vic_local hdi hsi
  obtain ⟨-, v', w', r', hv', rfl, hlocal'⟩ := exec_vic_local hdj hsj
  exact ⟨_, _, hlocal' _ hrun ((List.getElem?_set_ne hkl).trans hv'),
    hlocal _ hrun ((List.getElem?_set_ne hkl.symm).trans hv),
    rfl, List.set_comm w w' hkl, hrun, hrun, rfl, rfl⟩

theorem commutes_timer_vic (hdi : i.device = .timer) (hdj : j.device = .vic) :
    Commutes i j k l a b si sj := by
  obtain ⟨hrun, t, w, o, ht, rfl, hlocal⟩ := exec_timer_local hdi hsi hi
  obtain ⟨-, v', w', r', hv', rfl, hlocal'⟩ := exec_vic_local hdj hsj
  exact ⟨_, _, hlocal' _ hrun hv', hlocal _ hrun ht rfl, rfl, rfl, hrun, hrun, rfl, rfl⟩

end Commutes

/-- Settles O49, by the devices of the two: each operation depends on the state it addresses alone. -/
theorem operationsOnDifferentInstancesCommute : Obligations.OperationsOnDifferentInstancesCommute := by
  intro i j s si sj k l a b hdiff hsi hi hsj hj
  show Commutes i j k l a b si sj
  cases hdi : i.device <;> cases hdj : j.device
  case timer.timer =>
    exact commutes_timer_timer hsi hi hsj hj hdi hdj (hdiff.resolve_left (by simp [hdi, hdj]))
  case timer.vic => exact commutes_timer_vic hsi hi hsj hj hdi hdj
  case vic.timer => exact (commutes_timer_vic hsj hj hsi hi hdj hdi).symm
  case vic.vic =>
    exact commutes_vic_vic hsi hi hsj hj hdi hdj (hdiff.resolve_left (by simp [hdi, hdj]))

end Sys2Proof.Proofs
end
